-- ==== Sys2Proof/Word.lean ====
section
/-! DEFINITION. The plain word types of the PX-0825: bytes, frames, sequence numbers, lane numbers. -/

namespace Sys2Proof

/-- One byte of a frame or of a control payload. -/
abbrev Byte := BitVec 8

/-- A frame as the ports carry it, from the first byte of the destination address through the last
byte of the FCS; its length is the frame's length of R1. -/
abbrev Frame := List Byte

/-- A TCP sequence or acknowledgement number, compared modulo 2^32 (00_scope.md, Sequence numbers). -/
abbrev SeqNum := BitVec 32

/-- A lane number, 0–7 (R1). -/
abbrev LaneId := Fin 8

/-- A slot of the flow record pool, 0–1023 (R54). -/
abbrev SlotId := Fin 1024

end Sys2Proof
end

