-- ==== Sys2Proof/Syntax.lean ====
section
/-! DEFINITION. The steps of the PX-0825 as spec/opcode_table.json lists them, one constructor per row. -/

namespace Sys2Proof

/-- One step of the part. A frame is given whole, FCS included. A command of the control engine carries
its parameter bytes as they stand in a control payload after the code and the length byte (Table 11-2),
so that a parameter list too short, or one longer than the command reads, is spelled too. -/
inductive Instr where
  /-- POWER_ON: power is applied (R1). -/
  | powerOn
  /-- RST_N_ASSERT: the reset input goes low (R1). -/
  | rstNAssert
  /-- RST_N_RELEASE: the reset input rises, with the strap levels present at the edge (R183). -/
  | rstNRelease (addr : BitVec 4) (ctlsel : BitVec 2) (spd : BitVec 1)
  /-- INBOUND_ARRIVAL: a frame has been received whole on a lane's fabric side (R13). -/
  | inboundArrival (lane : LaneId) (frame : Frame)
  /-- OUTBOUND_ARRIVAL: a frame has been received whole on a lane's station side (R14). -/
  | outboundArrival (lane : LaneId) (frame : Frame)
  /-- OUTPUT_FRAME_END: the lane's fabric-side output finishes its frame (R16). -/
  | outputFrameEnd (lane : LaneId)
  /-- RESPONSE_HANDOVER: the arbiter takes the response that waits in the control engine (R17). -/
  | responseHandover
  /-- KEEPALIVE, code 0x01 (R162). -/
  | keepalive (params : List Byte)
  /-- READ_CHIP, code 0x02 (R163). -/
  | readChip (params : List Byte)
  /-- WRITE_CHIP, code 0x03 (R164). -/
  | writeChip (params : List Byte)
  /-- SET_TIMEBASE, code 0x04 (R138). -/
  | setTimebase (params : List Byte)
  /-- ACK_EVENTS, code 0x05 (R165). -/
  | ackEvents (params : List Byte)
  /-- SET_LANE_MODE, code 0x10 (R27, R28). -/
  | setLaneMode (params : List Byte)
  /-- WRITE_LANE_PARAMS, code 0x11 (R79). -/
  | writeLaneParams (params : List Byte)
  /-- READ_LANE, code 0x12 (R167). -/
  | readLane (params : List Byte)
  /-- READ_COUNTERS, code 0x13 (R168). -/
  | readCounters (params : List Byte)
  /-- FLUSH_FLOWS, code 0x14 (R74). -/
  | flushFlows (params : List Byte)
  /-- RELEASE_LANE, code 0x15 (R116). -/
  | releaseLane (params : List Byte)
  /-- START_PROBE, code 0x16 (R145). -/
  | startProbe (params : List Byte)
  /-- WRITE_CLASS, code 0x20 (R50, R51). -/
  | writeClass (params : List Byte)
  /-- READ_CLASS, code 0x21 (R53). -/
  | readClass (params : List Byte)
  /-- READ_FLOWS, code 0x30 (R75, R169). -/
  | readFlows (params : List Byte)
  /-- EVICT_FLOW, code 0x31 (R73, R170). -/
  | evictFlow (params : List Byte)
  /-- CHIP_RESET, code 0x7F (R171). -/
  | chipReset (params : List Byte)
  /-- DRAIN_RELEASE: the gate releases the head of a DRAINING lane whose ready list is empty (R117). -/
  | drainRelease (lane : LaneId)
  /-- EPOCH_TICK: the epoch count reaches E (R137). -/
  | epochTick
  /-- FLOW_TABLE_TICK: the tick reaches the flow table (R69, R70). -/
  | flowTableTick
  /-- EXPECTATION_TIMEOUT: the record in a slot has been silent for X ticks (R69, step 3). -/
  | expectationTimeout (slot : SlotId)
  /-- AGE_LIMIT: the record in a slot has been silent for A ticks (R69, step 4). -/
  | ageLimit (slot : SlotId)
  /-- GATE_TICK: the tick reaches the gate (R111). -/
  | gateTick
  /-- HOLD_LIMIT: a lane's GATED head has been held for H ticks (R111). -/
  | holdLimit (lane : LaneId)
  /-- PROBE_TICK: the tick reaches the rate probe (R152). -/
  | probeTick
  /-- PROBE_WINDOW_START: the tick finds the probe engine WAITING (R147). -/
  | probeWindowStart
  /-- PROBE_COMPLETION: the tick is the end tick of the probe's window (R150). -/
  | probeCompletion
  /-- PROBE_INTERVAL_REQUEST: the tick brings a lane's interval count to K (R142). -/
  | probeIntervalRequest (lane : LaneId)
  /-- KEEPALIVE_TICK: the tick reaches the keepalive monitor (R174). -/
  | keepaliveTick
  /-- KEEPALIVE_EXPIRY: the tick brings the keepalive count to T (R174, R175). -/
  | keepaliveExpiry
  /-- REFCLK_STOP: the reference clock stops (R184). -/
  | refclkStop
  /-- REFCLK_RETURN: the reference clock returns (R184). -/
  | refclkReturn
  deriving DecidableEq, Repr

end Sys2Proof
end

