-- ==== Sys2Proof/Decode.lean ====
section
/-! DEFINITION. The table's words. No row of spec/opcode_table.json carries bits: a step of this block is
an event or a command with operands, never a word of an instruction memory. -/

namespace Sys2Proof

/-- The step that a word of the table spells: no row gives bits, so no word spells one. -/
def decodeTableWord (_nbits _w : Nat) : Option Instr := none

end Sys2Proof
end

