-- ==== Sys2Proof/Config.lean ====
section
/-! DEFINITION. What the manual fixes for every PX-0825, and the one value it leaves open. -/

namespace Sys2Proof.Config

/-- The greatest length of a frame that is not oversize (R2). -/
def maxFrame : Nat := 9216

/-- The least length of a frame that is not a bad frame (R3). -/
def minFrame : Nat := 64

/-- Slots of the flow record pool (R54). -/
def poolSlots : Nat := 1024

/-- Entries one deferral queue holds at most (R98). -/
def queueEntries : Nat := 48

/-- Cells of the frame store (R99). -/
def storeCells : Nat := 1024

/-- Bytes of one cell of the frame store (R99). -/
def cellBytes : Nat := 256

/-- Frames the control FIFO holds at most (R156). -/
def fifoFrames : Nat := 4

/-- Bytes of a control payload at most (R155, R160). -/
def maxPayload : Nat := 1500

/-- The parameter length above which a command counts as an overrun (R158). -/
def maxParams : Nat := 250

/-- The greatest value of a 24-bit quantity: S, R_nominal, B, cost, expected, grant (R77, R80, R64). -/
def max24 : Nat := 16777215

/-- The greatest value of a 32-bit counter (R19, R63, R180). -/
def max32 : Nat := 4294967295

/-- The greatest value of the probe's byte count (R148). -/
def max40 : Nat := 1099511627775

/-- The control EtherType at power-on and after CHIP-RESET (R154). -/
def controlEtherType : Nat := 0x88B5

/-- The order in which the events of one epoch tick (the timer's own and the four blocks') are taken
when the reference clock itself brings the tick. R137, R112, R34 and R140 let every order stand and
state none, so the order is a free value: nothing in the model says what it is.
DESIGN CHOICE: notes/assumptions/3.md. -/
opaque tickOrder : Nat → Nat

end Sys2Proof.Config
end

