-- ==== Sys2Proof/Machine/State.lean ====
section
/-! DEFINITION. Everything the PX-0825 holds between two steps, as plain data, and its value after reset. -/

namespace Sys2Proof.Machine

/-- The machine's faults: none. The manual names no step that stops the part, so no constructor
exists and no meaning answers a fault. -/
inductive Fault where
  deriving DecidableEq, Repr

/-- The machine's refusals. -/
inductive Refusal where
  /-- Raised by an arm of exec whose step has no meaning yet; safe. No arm of this model raises it. -/
  | notModelled (mnemonic : String)
  deriving DecidableEq, Repr

/-! ### Lane modes and parameters -/

/-- The mode of a lane (R20). -/
inductive Mode where
  | bypass | monitor | active | draining | failsafe
  deriving DecidableEq, Repr

/-- The drain target of a lane (R20). -/
inductive DrainTarget where
  | none | bypass | monitor
  deriving DecidableEq, Repr

/-- The grant rule chosen at the last recompute (R83). -/
inductive Regime where
  | floor | fallback
  deriving DecidableEq, Repr

/-- The eleven parameters of a lane (Table 5-2). -/
structure LaneParams where
  /-- S, buffer share, bytes. -/
  bufferShare : Nat
  /-- R_nominal, nominal drain, bytes per epoch. -/
  rNominal : Nat
  /-- D, target delay, sixteenths of an epoch. -/
  targetDelay : Nat
  /-- F, floor grant, bytes. -/
  floorGrant : Nat
  /-- Ov, admission overcommit, eighths. -/
  overcommit : Nat
  /-- H, hold limit, epoch ticks. -/
  holdLimit : Nat
  /-- A, age limit, epoch ticks. -/
  ageLimit : Nat
  /-- X, expectation timeout, epoch ticks. -/
  timeout : Nat
  /-- Q, quota, flow records. -/
  quota : Nat
  /-- Wd, default weight. -/
  defaultWeight : Nat
  /-- K, short-probe interval, epoch ticks; 0 for none. -/
  probeInterval : Nat
  deriving DecidableEq, Repr

/-- The twelve counters of a lane's bank, in the order READ-COUNTERS returns them (R19, R168). -/
structure LaneCounters where
  opaqueFrames : Nat
  badFcs : Nat
  oversize : Nat
  stationCtl : Nat
  untracked : Nat
  unscaled : Nat
  lowered : Nat
  gated : Nat
  followed : Nat
  forced : Nat
  flushes : Nat
  probeUnsat : Nat
  deriving DecidableEq, Repr

/-! ### Connections and classes -/

/-- The IP version of a connection (R12). -/
inductive IpVersion where
  | v4 | v6
  deriving DecidableEq, Repr

/-- A connection, oriented to the station (R12): the key of flow records and of deferral queue entries. -/
structure FlowKey where
  version : IpVersion
  stationAddr : List Byte
  stationPort : Nat
  remoteAddr : List Byte
  remotePort : Nat
  deriving DecidableEq, Repr

/-- Precedence group of a match window (Table 3-1). -/
inductive Tier where
  | first | second | third | fallback
  deriving DecidableEq, Repr

/-- Which value of the segment a match window tests (Table 3-1). -/
inductive MatchField where
  | remotePort | stationPort | dscp | remoteAddrLow16
  deriving DecidableEq, Repr

/-- Treatment of the connections of a class (Table 3-1). -/
inductive Role where
  | plain | request | exempt
  deriving DecidableEq, Repr

/-- One match window (Table 3-1). -/
structure MatchWindow where
  enable : Bool
  tier : Tier
  field : MatchField
  base : BitVec 16
  k : Nat
  dc : BitVec 16
  lanes : BitVec 8
  role : Role
  cost : Nat
  weight : Nat
  deriving DecidableEq, Repr

/-- A class decision (R42). `cls` is none for NONE. -/
structure ClassDecision where
  cls : Option Nat
  role : Role
  cost : Nat
  weight : Nat
  deriving DecidableEq, Repr

/-! ### Flow records and held frames -/

/-- The handshake part of a record in LEARNING: the opener and the opener's option (Table 4-1). -/
inductive Handshake where
  /-- The station opened; its option is a shift or none. -/
  | station (option : Option Nat)
  /-- The remote opened; its option is present or absent. -/
  | remote (present : Bool)
  deriving DecidableEq, Repr

/-- Progress of a connection. The handshake part is present in LEARNING only (Table 4-1). -/
inductive RecordState where
  | learning (handshake : Handshake)
  | opened
  | closing
  deriving DecidableEq, Repr

/-- One flow record (Table 4-1). -/
structure FlowRecord where
  slot : Nat
  lane : LaneId
  key : FlowKey
  state : RecordState
  /-- The station's shift; none for UNKNOWN. -/
  scale : Option Nat
  /-- The captured class; none for NONE. -/
  cls : Option Nat
  weight : Nat
  grant : Nat
  /-- The right edge last advertised; none for ABSENT. -/
  lastEdge : Option SeqNum
  expected : Nat
  requestOpen : Bool
  epochBytes : Nat
  dataLastEpoch : Bool
  idleTicks : Nat
  seen : Bool
  deriving DecidableEq, Repr

/-- The kind of a deferral queue entry (Table 6-1). A GATED entry keeps its request's decision, whose
cost is the entry's cost; a FOLLOWER's cost is 0. -/
inductive EntryKind where
  | gated (decision : ClassDecision)
  | follower
  deriving DecidableEq, Repr

/-- One deferral queue entry (Table 6-1). -/
structure QueueEntry where
  kind : EntryKind
  key : FlowKey
  frame : Frame
  heldTicks : Nat
  deriving DecidableEq, Repr

/-! ### Lanes -/

/-- What the part holds for one lane: mode controller (R20), grant engine (R77), gate (R98), lane
counters (R19), probe interval count (Table 8-2) and merge arbiter (R16, R17). -/
structure LaneState where
  mode : Mode
  target : DrainTarget
  params : LaneParams
  /-- R_meas; none for ABSENT. -/
  rMeas : Option Nat
  rEff : Nat
  /-- B. -/
  budget : Nat
  nMax : Nat
  regime : Regime
  /-- The deferral queue, head first. -/
  queue : List QueueEntry
  counters : LaneCounters
  intervalCount : Nat
  /-- The fabric-side output: none when IDLE, the frame being sent when SENDING. -/
  output : Option Frame
  /-- The ready list, in the order the frames became ready. -/
  ready : List Frame
  /-- The response slot. -/
  response : Option Frame
  deriving DecidableEq, Repr

/-! ### Chip blocks -/

/-- The epoch timer (Table 8-1). -/
structure Timer where
  prescale : Nat
  epochDivisor : Nat
  staged : Option (Nat × Nat)
  prescaleCount : Nat
  epochCount : Nat
  epochNumber : Nat
  deriving DecidableEq, Repr

/-- The kind of a probe request (Table 8-2). -/
inductive ProbeKind where
  | short | long
  deriving DecidableEq, Repr

/-- A probe request (Table 8-2). -/
structure ProbeRequest where
  lane : LaneId
  kind : ProbeKind
  deriving DecidableEq, Repr

/-- The probe engine's state, with the request being served when it is not IDLE (Table 8-2). -/
inductive ProbeEngine where
  | idle
  | waiting (request : ProbeRequest)
  | measuring (request : ProbeRequest)
  deriving DecidableEq, Repr

/-- The rate probe (Table 8-2); the interval counts stand in the lanes. -/
structure Probe where
  queue : List ProbeRequest
  engine : ProbeEngine
  windowTicks : Nat
  byteCount : Nat
  valid : Bool
  deriving DecidableEq, Repr

/-- The keepalive monitor's state (R173). -/
inductive MonitorState where
  | off | running | expired
  deriving DecidableEq, Repr

/-- The keepalive monitor (R173). -/
structure Keepalive where
  /-- T. -/
  period : Nat
  count : Nat
  state : MonitorState
  deriving DecidableEq, Repr

/-- One item of a response frame (Table 11-1): code, status and results. -/
structure ResponseItem where
  code : Byte
  status : Byte
  results : List Byte
  deriving DecidableEq, Repr

/-- The frame in service with the response in building (Table 9-1): the command frame and its lane, its
control payload, the offset of the next command, the commands of the count not yet decided, the items
so far, the result space left, and whether every later command is ABANDONED. -/
structure InService where
  lane : LaneId
  frame : Frame
  payload : List Byte
  position : Nat
  remaining : Nat
  items : List ResponseItem
  space : Nat
  abandoned : Bool
  deriving DecidableEq, Repr

/-- The control engine's state (R154). In HAND-OVER the complete response waits for the arbiter of the
lane on which the command frame arrived. -/
inductive ControlState where
  | idle
  | executing (service : InService)
  | handOver (lane : LaneId) (response : Frame)
  deriving DecidableEq, Repr

/-- The control engine (Table 9-1). -/
structure Control where
  /-- The control FIFO, head first, each frame with the lane it arrived on. -/
  fifo : List (LaneId × Frame)
  engine : ControlState
  etherType : Nat
  accepted : Nat
  malformed : Nat
  fifoFull : Nat
  deriving DecidableEq, Repr

/-- The strap values sampled at the last rising edge of RST_N (R183). -/
structure Straps where
  addr : BitVec 4
  ctlsel : BitVec 2
  spd : BitVec 1
  deriving DecidableEq, Repr

/-! ### The whole machine -/

/-- Everything the part holds. The flow record pool lists the records in ascending slot order; a slot
that no record names is free (R54). -/
structure State where
  lanes : Vector LaneState 8
  windows : Vector MatchWindow 64
  pool : List FlowRecord
  timer : Timer
  probe : Probe
  keepalive : Keepalive
  control : Control
  /-- The latched states of the 19 events, bit i standing for value 2^i of R182 (R177). -/
  latch : BitVec 19
  /-- The enables of the 19 events (R177). -/
  enables : BitVec 19
  straps : Straps
  /-- The level of the RST_N pin: true while reset is released. -/
  rstN : Bool
  /-- Whether REFCLK runs. -/
  refclk : Bool
  /-- MODEL's own: the frames each station-side port has sent, oldest first. -/
  stationSent : Vector (List Frame) 8
  /-- MODEL's own: the frames each fabric-side port has sent whole, oldest first. -/
  fabricSent : Vector (List Frame) 8
  /-- MODEL's own: the response item of the last command the control engine executed. -/
  lastItem : Option ResponseItem
  /-- MODEL's own: how many orders of tick events have been drawn from Config.tickOrder. -/
  orderIndex : Nat
  /-- The steps that wait, first in, first out. -/
  pending : List Instr
  deriving DecidableEq, Repr

/-! ### Values after reset -/

/-- The defaults of Table 5-2 (R77). -/
def LaneParams.reset : LaneParams where
  bufferShare := 65536
  rNominal := 156250
  targetDelay := 5
  floorGrant := 2920
  overcommit := 8
  holdLimit := 8
  ageLimit := 64
  timeout := 16
  quota := 128
  defaultWeight := 4
  probeInterval := 0

/-- Every counter of a lane bank is 0 (R19). -/
def LaneCounters.reset : LaneCounters where
  opaqueFrames := 0
  badFcs := 0
  oversize := 0
  stationCtl := 0
  untracked := 0
  unscaled := 0
  lowered := 0
  gated := 0
  followed := 0
  forced := 0
  flushes := 0
  probeUnsat := 0

/-- A lane at power-on (R18, R19, R20, R77, R98, R141). -/
def LaneState.reset : LaneState where
  mode := .bypass
  target := .none
  params := LaneParams.reset
  rMeas := none
  rEff := 156250
  budget := 114364
  nMax := 39
  regime := .floor
  queue := []
  counters := LaneCounters.reset
  intervalCount := 0
  output := none
  ready := []
  response := none

/-- A match window at power-on (R37). -/
def MatchWindow.reset : MatchWindow where
  enable := false
  tier := .first
  field := .remotePort
  base := 0
  k := 0
  dc := 0
  lanes := 0
  role := .plain
  cost := 0
  weight := 1

/-- The epoch timer at power-on (Table 8-1, R136). -/
def Timer.reset : Timer where
  prescale := 100
  epochDivisor := 50
  staged := none
  prescaleCount := 0
  epochCount := 0
  epochNumber := 0

/-- The rate probe at power-on (Table 8-2, R141). -/
def Probe.reset : Probe where
  queue := []
  engine := .idle
  windowTicks := 0
  byteCount := 0
  valid := true

/-- The keepalive monitor at power-on (R173). -/
def Keepalive.reset : Keepalive where
  period := 0
  count := 0
  state := .off

/-- The control engine at power-on (Table 9-1, R154). -/
def Control.reset : Control where
  fifo := []
  engine := .idle
  etherType := Config.controlEtherType
  accepted := 0
  malformed := 0
  fifoFull := 0

/-- The strap values the model names where none has been sampled: an unconnected strap pin reads as 0
(11_formats_signals_and_straps.md, Electrical notes). DESIGN CHOICE: notes/assumptions/1.md. -/
def Straps.reset : Straps where
  addr := 0
  ctlsel := 0
  spd := 0

/-- The part right after reset: RST_N released, every block at its power-on values (R183), WDOG alone
enabled (R177), no step waiting. -/
def State.reset : State where
  lanes := Vector.replicate 8 LaneState.reset
  windows := Vector.replicate 64 MatchWindow.reset
  pool := []
  timer := Timer.reset
  probe := Probe.reset
  keepalive := Keepalive.reset
  control := Control.reset
  latch := 0
  enables := 1
  straps := Straps.reset
  rstN := true
  refclk := true
  stationSent := Vector.replicate 8 []
  fabricSent := Vector.replicate 8 []
  lastItem := none
  orderIndex := 0
  pending := []

end Sys2Proof.Machine
end

