-- ==== Sys2Proof/Machine/Ops.lean ====
section
/-! DEFINITION. The named operations over the machine's lanes, counters and flow record pool. -/

namespace Sys2Proof.Machine

/-! ### The part as a whole -/

/-- The ports receive and send, and ticks arise, while RST_N is released (R1) and REFCLK runs (R184). -/
def State.clocked (s : State) : Bool := s.rstN && s.refclk

/-- The lanes in ascending order. -/
def allLanes : List LaneId := [0, 1, 2, 3, 4, 5, 6, 7]

/-- One event on each lane, in ascending lane number. R152 gives this order for the probe; for the other
blocks it is DEDUCED: notes/assumptions/4.md. -/
def forEachLane (f : LaneId → State → State) (s : State) : State :=
  allLanes.foldl (fun s l => f l s) s

/-! ### Lanes -/

def State.lane (s : State) (l : LaneId) : LaneState := s.lanes.get l

def State.setLane (s : State) (l : LaneId) (x : LaneState) : State :=
  { s with lanes := s.lanes.set l.val x l.isLt }

def State.modLane (s : State) (l : LaneId) (f : LaneState → LaneState) : State :=
  s.setLane l (f (s.lane l))

/-- The modes in which a lane's accounting is kept: MONITOR, ACTIVE and DRAINING (Table 2-1). -/
def Mode.tracking : Mode → Bool
  | .monitor | .active | .draining => true
  | .bypass | .failsafe => false

/-- The modes in which outbound segments are rewritten: ACTIVE and DRAINING (Table 2-1). -/
def Mode.enforcing : Mode → Bool
  | .active | .draining => true
  | .bypass | .monitor | .failsafe => false

/-- The modes in which the probe serves a lane: MONITOR and ACTIVE (R142, R144). -/
def Mode.served : Mode → Bool
  | .monitor | .active => true
  | .bypass | .draining | .failsafe => false

/-! ### Counters -/

/-- An increment of a 32-bit counter, which holds at its greatest value (R19, R180). -/
def bump (n : Nat) : Nat := if n < Config.max32 then n + 1 else n

/-- The lane counters of Table 10-2. -/
inductive LaneCounter where
  | opaqueFrames | badFcs | oversize | stationCtl | untracked | unscaled | lowered | gated | followed
  | forced | flushes | probeUnsat
  deriving DecidableEq, Repr

def LaneCounters.count (c : LaneCounters) : LaneCounter → LaneCounters
  | .opaqueFrames => { c with opaqueFrames := bump c.opaqueFrames }
  | .badFcs => { c with badFcs := bump c.badFcs }
  | .oversize => { c with oversize := bump c.oversize }
  | .stationCtl => { c with stationCtl := bump c.stationCtl }
  | .untracked => { c with untracked := bump c.untracked }
  | .unscaled => { c with unscaled := bump c.unscaled }
  | .lowered => { c with lowered := bump c.lowered }
  | .gated => { c with gated := bump c.gated }
  | .followed => { c with followed := bump c.followed }
  | .forced => { c with forced := bump c.forced }
  | .flushes => { c with flushes := bump c.flushes }
  | .probeUnsat => { c with probeUnsat := bump c.probeUnsat }

/-- The twelve values in the order READ-COUNTERS returns them (R168). -/
def LaneCounters.values (c : LaneCounters) : List Nat :=
  [c.opaqueFrames, c.badFcs, c.oversize, c.stationCtl, c.untracked, c.unscaled, c.lowered, c.gated,
    c.followed, c.forced, c.flushes, c.probeUnsat]

/-- Counts one counter of a lane's bank once (R19). -/
def State.countLane (s : State) (l : LaneId) (c : LaneCounter) : State :=
  s.modLane l fun x => { x with counters := x.counters.count c }

/-! ### The wire -/

/-- Inbound frames leave by the station side in the order of their arrival (R13). -/
def State.sendStation (s : State) (l : LaneId) (f : Frame) : State :=
  { s with stationSent := s.stationSent.set l.val (s.stationSent.get l ++ [f]) l.isLt }

/-- A frame whose sending has ended has left by the fabric side (R1, R16). -/
def State.sendFabric (s : State) (l : LaneId) (f : Frame) : State :=
  { s with fabricSent := s.fabricSent.set l.val (s.fabricSent.get l ++ [f]) l.isLt }

/-! ### The merge arbiter -/

/-- With the output IDLE and the response slot empty, the head of the ready list starts (R16). -/
def LaneState.startReady (x : LaneState) : LaneState :=
  match x.output, x.response, x.ready with
  | none, none, f :: rest => { x with output := some f, ready := rest }
  | _, _, _ => x

/-- A frame becomes ready: it joins the tail of the ready list, and starts at once if the output is IDLE
with the response slot empty (R16). -/
def State.makeReady (s : State) (l : LaneId) (f : Frame) : State :=
  s.modLane l fun x => LaneState.startReady { x with ready := x.ready ++ [f] }

/-! ### The flow record pool -/

/-- Activity of a record (R55). -/
def FlowRecord.active (r : FlowRecord) : Bool :=
  decide (r.state ≠ .closing) && (decide (0 < r.epochBytes) || r.dataLastEpoch || decide (0 < r.expected))

/-- The records of one lane, in ascending slot order. -/
def State.records (s : State) (l : LaneId) : List FlowRecord := s.pool.filter fun r => r.lane = l

/-- The active records of one lane. -/
def State.activeRecords (s : State) (l : LaneId) : List FlowRecord := (s.records l).filter (·.active)

/-- The lane's record count (R54). -/
def State.recordCount (s : State) (l : LaneId) : Nat := (s.records l).length

/-- n of a lane (R55). -/
def State.n (s : State) (l : LaneId) : Nat := (s.activeRecords l).length

/-- W of a lane (R55). -/
def State.w (s : State) (l : LaneId) : Nat := ((s.activeRecords l).map (·.weight)).sum

/-- C of a lane (R55), CLOSING records included. -/
def State.c (s : State) (l : LaneId) : Nat := ((s.records l).map (·.expected)).sum

/-- The active set of a lane as the grant engine sees it: which slots, with which weights (R68). -/
def State.activeSet (s : State) (l : LaneId) : List (Nat × Nat) :=
  (s.activeRecords l).map fun r => (r.slot, r.weight)

/-- The record of a lane and key (R56). -/
def State.findRecord (s : State) (l : LaneId) (key : FlowKey) : Option FlowRecord :=
  s.pool.find? fun r => r.lane = l ∧ r.key = key

/-- Changes the record of a lane and key, where there is one. -/
def State.modRecord (s : State) (l : LaneId) (key : FlowKey) (f : FlowRecord → FlowRecord) : State :=
  { s with pool := s.pool.map fun r => if r.lane = l ∧ r.key = key then f r else r }

/-- The lowest-numbered free slot at or above `n` of a pool in ascending slot order (R57). -/
def lowestFree : Nat → List FlowRecord → Nat
  | n, [] => n
  | n, r :: rest => if r.slot = n then lowestFree (n + 1) rest else n

/-- Places a record by its slot. -/
def insertRecord (x : FlowRecord) : List FlowRecord → List FlowRecord
  | [] => [x]
  | r :: rest => if x.slot < r.slot then x :: r :: rest else r :: insertRecord x rest

/-- Removes every record of one lane (R72). -/
def State.removeLaneRecords (s : State) (l : LaneId) : State :=
  { s with pool := s.pool.filter fun r => r.lane ≠ l }

/-- Removes the record of a lane and key (R72). -/
def State.removeRecord (s : State) (l : LaneId) (key : FlowKey) : State :=
  { s with pool := s.pool.filter fun r => ¬ (r.lane = l ∧ r.key = key) }

/-- The pool's canonical form: at most one record a slot, in ascending slot order, every slot below 1024
(R54). The second argument is the least slot the list may name. -/
def poolSlotsFrom : Nat → List FlowRecord → Bool
  | _, [] => true
  | n, r :: rest => decide (n ≤ r.slot) && decide (r.slot < Config.poolSlots) && poolSlotsFrom (r.slot + 1) rest

/-- The pool is in canonical form (R54). -/
def poolWf (pool : List FlowRecord) : Bool := poolSlotsFrom 0 pool

/-! ### The deferral queues and the frame store -/

/-- The cells a frame of a length occupies: ceil(L / 256) (R99). -/
def cellsOf (length : Nat) : Nat := (length + (Config.cellBytes - 1)) / Config.cellBytes

/-- The cells the entries of one queue occupy (R99). -/
def queueCells (q : List QueueEntry) : Nat := (q.map fun e => cellsOf e.frame.length).sum

/-- The cells a lane's entries occupy (R99). -/
def State.laneCells (s : State) (l : LaneId) : Nat := queueCells (s.lane l).queue

/-- The cells in use in the frame store (R99). -/
def State.usedCells (s : State) : Nat := (allLanes.map s.laneCells).sum

/-- The free cells of the frame store (R99). -/
def State.freeCells (s : State) : Nat := Config.storeCells - s.usedCells

/-- The entries of one connection in a lane's queue (R100). -/
def State.entriesOf (s : State) (l : LaneId) (key : FlowKey) : Nat :=
  ((s.lane l).queue.filter fun e => e.key = key).length

/-- Whether a lane's queue holds an entry of a connection (R100). -/
def State.holds (s : State) (l : LaneId) (key : FlowKey) : Bool :=
  (s.lane l).queue.any fun e => e.key = key

/-- The decision and cost of an entry: a FOLLOWER's cost is 0 (Table 6-1). -/
def QueueEntry.cost (e : QueueEntry) : Nat :=
  match e.kind with
  | .gated d => d.cost
  | .follower => 0

/-! ### Taking the power-on values -/

/-- Every block at its power-on values (R1, R183), with what lies outside the part kept: the levels of
RST_N and REFCLK, the frames already on the wire, the drawn tick orders and the waiting steps. -/
def State.powerOnBlocks (s : State) : State :=
  { State.reset with
    rstN := s.rstN
    refclk := s.refclk
    stationSent := s.stationSent
    fabricSent := s.fabricSent
    orderIndex := s.orderIndex
    pending := s.pending }

end Sys2Proof.Machine
end

