-- ==== Sys2Proof/Machine/Operands.lean ====
section
/-! DEFINITION. The operand forms of control payloads and frames: big-endian fields, code values and the
layouts of parameters and readouts (Tables 11-1 to 11-3, R182). -/

namespace Sys2Proof.Machine

/-! ### Byte fields -/

/-- A multi-byte value, most significant byte first (R182). -/
def beNat (bs : List Byte) : Nat := bs.foldl (fun acc b => acc * 256 + b.toNat) 0

/-- `n` bytes of a value, most significant byte first (R182). -/
def beBytes : Nat → Nat → List Byte
  | 0, _ => []
  | n + 1, v => BitVec.ofNat 8 (v / 256 ^ n) :: beBytes n v

/-- The bytes of a field at an offset. -/
def bytesAt (bs : List Byte) (off n : Nat) : List Byte := (bs.drop off).take n

/-- The value of a field at an offset, most significant byte first. -/
def fieldAt (bs : List Byte) (off n : Nat) : Nat := beNat (bytesAt bs off n)

/-- The byte at an offset; offsets past the end are never read by a rule. -/
def byteAt (bs : List Byte) (off : Nat) : Nat := fieldAt bs off 1

/-- Replaces the bytes of a field at an offset. -/
def putBytes (bs : List Byte) (off : Nat) (new : List Byte) : List Byte :=
  bs.take off ++ new ++ bs.drop (off + new.length)

/-- `n` zero bytes (R182, zero fill). -/
def zeros (n : Nat) : List Byte := List.replicate n 0

/-- A value that can be absent: a presence byte and the value field, 0 when absent (R182). -/
def optBytes (n : Nat) : Option Nat → List Byte
  | some v => 1 :: beBytes n v
  | none => 0 :: zeros n

def boolByte (b : Bool) : Byte := if b then 1 else 0

/-! ### Codes (Table 11-3) -/

/-- The statuses of a response item (Table 9-2). -/
inductive Status where
  | ok | clamped | notNow | badLane | badIndex | badValue | unknown | short | abandoned
  deriving DecidableEq, Repr

def Status.code : Status → Byte
  | .ok => 0x00
  | .clamped => 0x01
  | .notNow => 0x02
  | .badLane => 0x03
  | .badIndex => 0x04
  | .badValue => 0x05
  | .unknown => 0x06
  | .short => 0x07
  | .abandoned => 0x08

def Mode.code : Mode → Byte
  | .bypass => 0
  | .monitor => 1
  | .active => 2
  | .draining => 3
  | .failsafe => 4

def DrainTarget.code : DrainTarget → Byte
  | .bypass => 0
  | .monitor => 1
  | .none => 0xFF

def MonitorState.code : MonitorState → Byte
  | .off => 0
  | .running => 1
  | .expired => 2

def ProbeKind.code : ProbeKind → Byte
  | .short => 0
  | .long => 1

def Tier.code : Tier → Byte
  | .first => 0
  | .second => 1
  | .third => 2
  | .fallback => 3

def MatchField.code : MatchField → Byte
  | .remotePort => 0
  | .stationPort => 1
  | .dscp => 2
  | .remoteAddrLow16 => 3

def Role.code : Role → Byte
  | .plain => 0
  | .request => 1
  | .exempt => 2

def Regime.code : Regime → Byte
  | .floor => 0
  | .fallback => 1

def RecordState.code : RecordState → Byte
  | .learning _ => 0
  | .opened => 1
  | .closing => 2

def IpVersion.code : IpVersion → Byte
  | .v4 => 4
  | .v6 => 6

/-- A scale or class, with 0xFF for UNKNOWN or NONE. -/
def orFF : Option Nat → Byte
  | some v => BitVec.ofNat 8 v
  | none => 0xFF

/-- The opener and the opener's option: none and 0xFF outside LEARNING. -/
def RecordState.handshakeBytes : RecordState → List Byte
  | .learning (.station option) => [1, orFF option]
  | .learning (.remote true) => [2, 0x40]
  | .learning (.remote false) => [2, 0xFF]
  | .opened | .closing => [0, 0xFF]

/-- The mode a SET-LANE-MODE may request (R27, check 3). -/
inductive RequestedMode where
  | bypass | monitor | active
  deriving DecidableEq, Repr

def requestedMode : Nat → Option RequestedMode
  | 0 => some .bypass
  | 1 => some .monitor
  | 2 => some .active
  | _ => none

def probeKindOf : Nat → Option ProbeKind
  | 0 => some .short
  | 1 => some .long
  | _ => none

def enableOf : Nat → Option Bool
  | 0 => some false
  | 1 => some true
  | _ => none

def tierOf : Nat → Option Tier
  | 0 => some .first
  | 1 => some .second
  | 2 => some .third
  | 3 => some .fallback
  | _ => none

def matchFieldOf : Nat → Option MatchField
  | 0 => some .remotePort
  | 1 => some .stationPort
  | 2 => some .dscp
  | 3 => some .remoteAddrLow16
  | _ => none

def roleOf : Nat → Option Role
  | 0 => some .plain
  | 1 => some .request
  | 2 => some .exempt
  | _ => none

/-- A lane number 0–7 (R159, check 3). -/
def laneOf (v : Nat) : Option LaneId := if h : v < 8 then some ⟨v, h⟩ else none

/-- A class index 0–63 (R159, check 3). -/
def classIndexOf (v : Nat) : Option (Fin 64) := if h : v < 64 then some ⟨v, h⟩ else none

/-! ### Parameter layouts -/

/-- A value clamped to a range. -/
def clampTo (lo hi v : Nat) : Nat := max lo (min hi v)

/-- The eleven parameters as a WRITE-LANE-PARAMS carries them at an offset (R182, parameter block). -/
def paramBlockAt (bs : List Byte) (off : Nat) : LaneParams where
  bufferShare := fieldAt bs off 3
  rNominal := fieldAt bs (off + 3) 3
  targetDelay := fieldAt bs (off + 6) 2
  floorGrant := fieldAt bs (off + 8) 2
  overcommit := fieldAt bs (off + 10) 1
  holdLimit := fieldAt bs (off + 11) 1
  ageLimit := fieldAt bs (off + 12) 1
  timeout := fieldAt bs (off + 13) 1
  quota := fieldAt bs (off + 14) 2
  defaultWeight := fieldAt bs (off + 16) 1
  probeInterval := fieldAt bs (off + 17) 1

/-- The eleven parameters as stored: each clamped to its range of Table 5-2, Q then raised to the lane's
record count (R79). -/
def LaneParams.clamped (p : LaneParams) (recordCount : Nat) : LaneParams where
  bufferShare := clampTo 0 Config.max24 p.bufferShare
  rNominal := clampTo 1 Config.max24 p.rNominal
  targetDelay := clampTo 0 4095 p.targetDelay
  floorGrant := clampTo 64 65535 p.floorGrant
  overcommit := clampTo 8 32 p.overcommit
  holdLimit := clampTo 1 255 p.holdLimit
  ageLimit := clampTo 1 255 p.ageLimit
  timeout := clampTo 1 255 p.timeout
  quota := max recordCount (clampTo 1 1024 p.quota)
  defaultWeight := clampTo 1 15 p.defaultWeight
  probeInterval := clampTo 0 255 p.probeInterval

/-- The parameter block of WRITE-LANE-PARAMS and of the lane readout, 18 bytes (R182). -/
def LaneParams.bytes (p : LaneParams) : List Byte :=
  beBytes 3 p.bufferShare ++ beBytes 3 p.rNominal ++ beBytes 2 p.targetDelay ++ beBytes 2 p.floorGrant ++
    beBytes 1 p.overcommit ++ beBytes 1 p.holdLimit ++ beBytes 1 p.ageLimit ++ beBytes 1 p.timeout ++
    beBytes 2 p.quota ++ beBytes 1 p.defaultWeight ++ beBytes 1 p.probeInterval

/-- The class entry at an offset, none when its enable, tier, field or role code is undefined (R50,
check 3). k and weight are clamped, and the base is stored with its low k bits cleared (R50, R51). -/
def classEntryAt (bs : List Byte) (off : Nat) : Option MatchWindow :=
  match enableOf (fieldAt bs off 1), tierOf (fieldAt bs (off + 1) 1), matchFieldOf (fieldAt bs (off + 2) 1),
      roleOf (fieldAt bs (off + 9) 1) with
  | some en, some ti, some fi, some ro =>
    let k := min 16 (fieldAt bs (off + 5) 1)
    some {
      enable := en
      tier := ti
      field := fi
      base := BitVec.ofNat 16 (fieldAt bs (off + 3) 2 / 2 ^ k * 2 ^ k)
      k := k
      dc := BitVec.ofNat 16 (fieldAt bs (off + 6) 2)
      lanes := BitVec.ofNat 8 (fieldAt bs (off + 8) 1)
      role := ro
      cost := fieldAt bs (off + 10) 3
      weight := clampTo 1 15 (fieldAt bs (off + 13) 1) }
  | _, _, _, _ => none

/-- Whether a WRITE-CLASS applies a clamp: k above 16, weight 0 or weight above 15 (R50). -/
def classEntryClamped (bs : List Byte) (off : Nat) : Bool :=
  decide (16 < fieldAt bs (off + 5) 1) || decide (fieldAt bs (off + 13) 1 = 0) ||
    decide (15 < fieldAt bs (off + 13) 1)

/-- The class entry of WRITE-CLASS and READ-CLASS, 14 bytes (R182). -/
def MatchWindow.bytes (w : MatchWindow) : List Byte :=
  [boolByte w.enable, w.tier.code, w.field.code] ++ beBytes 2 w.base.toNat ++ beBytes 1 w.k ++
    beBytes 2 w.dc.toNat ++ [w.lanes, w.role.code] ++ beBytes 3 w.cost ++ beBytes 1 w.weight

/-- The address length of an IP version (R170). -/
def IpVersion.addrBytes : IpVersion → Nat
  | .v4 => 4
  | .v6 => 16

/-- The IP version a byte names (R159, check 4). -/
def ipVersionOf : Nat → Option IpVersion
  | 4 => some .v4
  | 6 => some .v6
  | _ => none

/-- The key of an EVICT-FLOW at an offset (Table 11-2). -/
def keyAt (v : IpVersion) (bs : List Byte) (off : Nat) : FlowKey where
  version := v
  stationAddr := bytesAt bs off v.addrBytes
  stationPort := fieldAt bs (off + v.addrBytes) 2
  remoteAddr := bytesAt bs (off + v.addrBytes + 2) v.addrBytes
  remotePort := fieldAt bs (off + 2 * v.addrBytes + 2) 2

/-- An address in its 16-byte field, the bytes an IPv4 address leaves being zero fill (R182). -/
def addrField (a : List Byte) : List Byte := a ++ zeros (16 - a.length)

end Sys2Proof.Machine
end

