-- ==== Sys2Proof/Machine/Recognition.lean ====
section
/-! DEFINITION. Frame recognition: the FCS, the Ethernet, IPv4, IPv6 and TCP headers, the window scale
option and the segment report (R2 to R12, R132). -/

namespace Sys2Proof.Machine

/-! ### The FCS (R132) -/

/-- The generator polynomial of the Ethernet CRC-32. -/
def crcPoly : BitVec 32 := 0x04C11DB7#32

/-- One message bit enters the remainder register. -/
def crcBit (r : BitVec 32) (b : Bool) : BitVec 32 :=
  if r.msb != b then (r <<< 1) ^^^ crcPoly else r <<< 1

/-- The bits of a byte enter least significant bit first. -/
def crcByte (r : BitVec 32) (x : Byte) : BitVec 32 :=
  [0, 1, 2, 3, 4, 5, 6, 7].foldl (fun r i => crcBit r (x.getLsbD i)) r

/-- The register in reverse bit order. -/
def reflect (r : BitVec 32) : BitVec 32 :=
  (List.range 32).foldl (fun acc i => acc ||| (BitVec.ofNat 32 (if r.getLsbD i then 2 ^ (31 - i) else 0))) 0

/-- The Ethernet CRC-32: the register starts at all ones; the result is taken reflected and inverted. -/
def crc32 (bs : List Byte) : BitVec 32 := ~~~ (reflect (bs.foldl crcByte 0xFFFFFFFF#32))

/-- The FCS of a frame's contents, least significant byte first. -/
def fcsBytes (contents : List Byte) : List Byte := (beBytes 4 (crc32 contents).toNat).reverse

/-- A frame without its FCS. -/
def contentsOf (f : Frame) : List Byte := f.take (f.length - 4)

/-- The contents with the FCS of R132 after them. -/
def withFcs (contents : List Byte) : Frame := contents ++ fcsBytes contents

/-! ### Oversize and bad frames (R2, R3) -/

def isOversize (f : Frame) : Bool := decide (Config.maxFrame < f.length)

def isBad (f : Frame) : Bool :=
  decide (f.length < Config.minFrame) || decide (f.drop (f.length - 4) ≠ fcsBytes (contentsOf f))

/-! ### The Ethernet header (R4) -/

/-- The EtherType of a frame and the offset of its network header. -/
structure EtherHeader where
  etherType : Nat
  netAt : Nat
  deriving DecidableEq, Repr

/-- The two VLAN tag identifiers. -/
def isTpid (v : Nat) : Bool := v == 0x8100 || v == 0x88A8

/-- Reads types from an offset on, with the count of tags already read. A type below 0x0600 before a
second tag is a length field; a third TPID, or a frame that ends first, has no EtherType. -/
def etherFrom (f : Frame) : Nat → Nat → Option EtherHeader
  | fuel, off =>
    if (contentsOf f).length < off + 2 then none
    else
      let t := fieldAt f off 2
      match fuel with
      | 0 => if isTpid t then none else some { etherType := t, netAt := off + 2 }
      | n + 1 =>
        if t < 0x0600 then none
        else if isTpid t then etherFrom f n (off + 4)
        else some { etherType := t, netAt := off + 2 }

/-- The Ethernet header of a frame: zero, one or two tags before the EtherType. -/
def etherHeader (f : Frame) : Option EtherHeader := etherFrom f 2 12

/-- The destination address. -/
def destination (f : Frame) : List Byte := f.take 6

/-- The source address. -/
def source (f : Frame) : List Byte := bytesAt f 6 6

/-- The VLAN tags of a frame, in order and with their values. -/
def vlanTags (f : Frame) (h : EtherHeader) : List Byte := bytesAt f 12 (h.netAt - 14)

/-! ### Control frames (R5, R6) -/

/-- The chip address 0A-3C-71-2F-50-0n. -/
def chipAddress (addr : BitVec 4) : List Byte := [0x0A, 0x3C, 0x71, 0x2F, 0x50, BitVec.ofNat 8 addr.toNat]

/-- The group address 0B-3C-71-2F-50-FF. -/
def groupAddress : List Byte := [0x0B, 0x3C, 0x71, 0x2F, 0x50, 0xFF]

/-- Both conditions of R5: the control EtherType and the chip or group destination. -/
def isControl (etherType : Nat) (addr : BitVec 4) (f : Frame) : Bool :=
  match etherHeader f with
  | some h => h.etherType == etherType && (destination f == chipAddress addr || destination f == groupAddress)
  | none => false

/-- The control-enabled lanes under a CTLSEL value (R5; chapter Formats, Signals and Straps, Pins). -/
def controlEnabled (ctlsel : BitVec 2) (l : LaneId) : Bool :=
  match ctlsel.toNat with
  | 0 => l == 0
  | 1 => l == 0 || l == 4
  | 2 => true
  | _ => false

/-! ### IP packets (R7, R8) -/

/-- What the part reads of an accepted IP TCP packet: source and destination addresses in header order,
the DSCP, and the place and length of the IP payload. -/
structure IpPacket where
  version : IpVersion
  srcAddr : List Byte
  dstAddr : List Byte
  dscp : Nat
  payloadAt : Nat
  payloadLen : Nat
  deriving DecidableEq, Repr

/-- IPv4 (R7). `present` is the bytes from the network header to the byte before the FCS. -/
def parseIpv4 (f : Frame) (o present : Nat) : Option IpPacket :=
  let headerLen := byteAt f o % 16 * 4
  let totalLen := fieldAt f (o + 2) 2
  if byteAt f o / 16 = 4 ∧ 20 ≤ headerLen ∧ fieldAt f (o + 6) 2 % 0x4000 = 0 ∧ byteAt f (o + 9) = 6 ∧
      totalLen ≤ present ∧ headerLen + 20 ≤ totalLen then
    some {
      version := .v4
      srcAddr := bytesAt f (o + 12) 4
      dstAddr := bytesAt f (o + 16) 4
      dscp := byteAt f (o + 1) / 4
      payloadAt := o + headerLen
      payloadLen := totalLen - headerLen }
  else none

/-- IPv6 (R8). The traffic class lies in the lower half of the first byte and the upper half of the
second; its upper six bits are the DSCP. -/
def parseIpv6 (f : Frame) (o present : Nat) : Option IpPacket :=
  let payloadLen := fieldAt f (o + 4) 2
  if byteAt f o / 16 = 6 ∧ byteAt f (o + 6) = 6 ∧ payloadLen ≤ present - 40 ∧ 20 ≤ payloadLen then
    some {
      version := .v6
      srcAddr := bytesAt f (o + 8) 16
      dstAddr := bytesAt f (o + 24) 16
      dscp := fieldAt f o 2 / 64 % 64
      payloadAt := o + 40
      payloadLen := payloadLen }
  else none

/-- The IP TCP packet of a frame (R7, R8). -/
def parseIp (f : Frame) (h : EtherHeader) : Option IpPacket :=
  let present := (contentsOf f).length - h.netAt
  if h.etherType = 0x0800 then parseIpv4 f h.netAt present
  else if h.etherType = 0x86DD then parseIpv6 f h.netAt present
  else none

/-! ### TCP (R9, R10) -/

/-- Reads a TCP option list: none when it is malformed, otherwise the first window scale shift, if any. The
first argument bounds the options read; the list's length is enough. -/
def readOptions : Nat → List Byte → Option Nat → Option (Option Nat)
  | 0, _, found => some found
  | _ + 1, [], found => some found
  | fuel + 1, kind :: rest, found =>
    if kind = 0 then some found
    else if kind = 1 then readOptions fuel rest found
    else
      match rest with
      | [] => none
      | len :: body =>
        if len.toNat < 2 ∨ body.length < len.toNat - 2 then none
        else if kind = 3 then
          if len = 3 then
            readOptions fuel (body.drop 1) (found <|> some (min 14 (beNat (body.take 1))))
          else none
        else readOptions fuel (body.drop (len.toNat - 2)) found

/-- The window scale option of a SYN: absent, or a shift 0–14 (R10). -/
def scaleOption (options : List Byte) : Option Nat := (readOptions options.length options none).getD none

/-- The direction of a segment (Table 1-3). -/
inductive Direction where
  | inbound | outbound
  deriving DecidableEq, Repr

/-- The segment report (Table 1-3) and, for the rewriter, where the TCP header stands in the frame. The
lane goes beside it. -/
structure Segment where
  direction : Direction
  key : FlowKey
  dscp : Nat
  syn : Bool
  ack : Bool
  fin : Bool
  rst : Bool
  payloadLen : Nat
  /-- The scale option: none for absent. -/
  scaleOption : Option Nat
  tcpAt : Nat
  deriving DecidableEq, Repr

/-- The key of a packet, oriented to the station (R12). -/
def orientedKey (d : Direction) (ip : IpPacket) (srcPort dstPort : Nat) : FlowKey :=
  match d with
  | .outbound => ⟨ip.version, ip.srcAddr, srcPort, ip.dstAddr, dstPort⟩
  | .inbound => ⟨ip.version, ip.dstAddr, dstPort, ip.srcAddr, srcPort⟩

/-- The TCP segment of a packet (R9), with its report (R12). -/
def parseTcp (d : Direction) (f : Frame) (ip : IpPacket) : Option Segment :=
  let o := ip.payloadAt
  let headerLen := byteAt f (o + 12) / 16 * 4
  if 20 ≤ headerLen ∧ headerLen ≤ ip.payloadLen then
    let flags := BitVec.ofNat 8 (byteAt f (o + 13))
    let syn := flags.getLsbD 1
    some {
      direction := d
      key := orientedKey d ip (fieldAt f o 2) (fieldAt f (o + 2) 2)
      dscp := ip.dscp
      syn := syn
      ack := flags.getLsbD 4
      fin := flags.getLsbD 0
      rst := flags.getLsbD 2
      payloadLen := ip.payloadLen - headerLen
      scaleOption := if syn then scaleOption (bytesAt f (o + 20) (headerLen - 20)) else none
      tcpAt := o }
  else none

/-- The segment report of a frame that is a TCP segment; a frame without one is opaque (R11). -/
def segmentOf (d : Direction) (f : Frame) : Option Segment :=
  match etherHeader f with
  | none => none
  | some h =>
    match parseIp f h with
    | none => none
    | some ip => parseTcp d f ip

/-! ### Fields of a segment the rewriter reads (R122) -/

/-- The acknowledgement number. -/
def ackNumber (f : Frame) (g : Segment) : SeqNum := BitVec.ofNat 32 (fieldAt f (g.tcpAt + 8) 4)

/-- The window field. -/
def windowField (f : Frame) (g : Segment) : Nat := fieldAt f (g.tcpAt + 14) 2

/-- The TCP checksum. -/
def tcpChecksum (f : Frame) (g : Segment) : BitVec 16 := BitVec.ofNat 16 (fieldAt f (g.tcpAt + 16) 2)

end Sys2Proof.Machine
end

