-- ==== Sys2Proof/Machine/MatchTable.lean ====
section
/-! DEFINITION. The match window table: the match test, its resolution and the class decision (R37 to R42). -/

namespace Sys2Proof.Machine

/-- An entry takes part in a lookup of a lane when it is enabled and its lane mask has the lane's bit
(R38). -/
def MatchWindow.takesPart (w : MatchWindow) (l : LaneId) : Bool := w.enable && w.lanes.getLsbD l.val

/-- The low 16 bits of a remote address: its last two bytes, the first of them the high byte (R39). -/
def addrLow16 (a : List Byte) : Nat := fieldAt a (a.length - 2) 2

/-- The value v an entry tests (Table 3-2, R39). -/
def Segment.value (g : Segment) : MatchField → Nat
  | .remotePort => g.key.remotePort
  | .stationPort => g.key.stationPort
  | .dscp => g.dscp
  | .remoteAddrLow16 => addrLow16 g.key.remoteAddr

/-- The match test: b ≤ v′ < b + 2^k, the sum formed exactly (R40). -/
def MatchWindow.tests (w : MatchWindow) (v : Nat) : Bool :=
  let b := (w.base &&& ~~~ w.dc).toNat
  let v' := (BitVec.ofNat 16 v &&& ~~~ w.dc).toNat
  decide (b ≤ v') && decide (v' < b + 2 ^ w.k)

/-- An entry matches a segment of a lane (R38 to R40). -/
def MatchWindow.matchesSegment (w : MatchWindow) (l : LaneId) (g : Segment) : Bool :=
  w.takesPart l && w.tests (g.value w.field)

/-- The matching entry of lowest index in one tier, with its index (R41). -/
def State.firstInTier (s : State) (l : LaneId) (g : Segment) (t : Tier) : Option (MatchWindow × Nat) :=
  s.windows.toList.zipIdx.find? fun p => decide (p.1.tier = t) && p.1.matchesSegment l g

/-- The entry a lookup selects: the first tier of FIRST, SECOND and THIRD with a match, else FALLBACK
(R41). -/
def State.selectedWindow (s : State) (l : LaneId) (g : Segment) : Option (MatchWindow × Nat) :=
  s.firstInTier l g .first <|> s.firstInTier l g .second <|> s.firstInTier l g .third <|>
    s.firstInTier l g .fallback

/-- The class decision of a segment (R42). -/
def State.lookup (s : State) (l : LaneId) (g : Segment) : ClassDecision :=
  match s.selectedWindow l g with
  | some (w, i) => ⟨some i, w.role, if w.role = .request then w.cost else 0, w.weight⟩
  | none => ⟨none, .plain, 0, (s.lane l).params.defaultWeight⟩

end Sys2Proof.Machine
end

