-- ==== Sys2Proof/Machine/FlowTable.lean ====
section
/-! DEFINITION. The flow table: creation, scale learning, closing, payload, request detection, charges and
ageing of flow records (R54 to R76). The hand-on of these effects stands in GrantEngine and Gate. -/

namespace Sys2Proof.Machine

/-! ### Creation (R57, R58) -/

/-- A new record of a lane and key in the lowest free slot, with the fields of R58. -/
def newRecord (slot : Nat) (l : LaneId) (key : FlowKey) (st : RecordState) (d : ClassDecision) : FlowRecord where
  slot := slot
  lane := l
  key := key
  state := st
  scale := none
  cls := d.cls
  weight := d.weight
  grant := 0
  lastEdge := none
  expected := 0
  requestOpen := false
  epochBytes := 0
  dataLastEpoch := false
  idleTicks := 0
  seen := true

/-- Room for one more record: the lane's record count is below Q and a slot is free (R57). -/
def State.hasRoom (s : State) (l : LaneId) : Bool :=
  decide (s.recordCount l < (s.lane l).params.quota) && decide (s.pool.length < Config.poolSlots)

/-- Creates a record of an unknown connection. An EXEMPT decision prevents the creation without a count
(R45); a refusal for quota or pool counts UNTRACKED once (R57). -/
def State.createRecord (s : State) (l : LaneId) (key : FlowKey) (st : RecordState) (d : ClassDecision) : State :=
  if d.role = .exempt then s
  else if s.hasRoom l then
    { s with pool := insertRecord (newRecord (lowestFree 0 s.pool) l key st d) s.pool }
  else s.countLane l .untracked

/-! ### The handshake (R60, R61) -/

/-- The handshake part a SYN starts: its side as opener, with its option (R58, R61). -/
def Segment.handshake (g : Segment) : Handshake :=
  match g.direction with
  | .outbound => .station g.scaleOption
  | .inbound => .remote g.scaleOption.isSome

/-- The scale after completion: the station's shift when both sides offered the option, else 0 (R60). -/
def agreedScale (station : Option Nat) (remotePresent : Bool) : Nat :=
  if remotePresent then station.getD 0 else 0

/-- A record reset for reuse by an opening SYN (R61). Class and weight are kept when the SYN's decision is
EXEMPT (R46). -/
def FlowRecord.reuse (r : FlowRecord) (g : Segment) (d : ClassDecision) : FlowRecord :=
  { r with
    state := .learning g.handshake
    scale := none
    lastEdge := none
    expected := 0
    requestOpen := false
    epochBytes := 0
    dataLastEpoch := false
    idleTicks := 0
    cls := if d.role = .exempt then r.cls else d.cls
    weight := if d.role = .exempt then r.weight else d.weight }

/-- A SYN that reaches a record: a retransmission from the opener's side, the completion from the other
side, a reuse of an OPEN or CLOSING record, or a repeated SYN-ACK (R60, R61). -/
def FlowRecord.onSyn (r : FlowRecord) (g : Segment) (d : ClassDecision) : FlowRecord :=
  match r.state, g.direction with
  | .learning (.station _), .outbound => { r with state := .learning (.station g.scaleOption) }
  | .learning (.remote _), .inbound => { r with state := .learning (.remote g.scaleOption.isSome) }
  | .learning (.station o), .inbound =>
    { r with state := .opened, scale := some (agreedScale o g.scaleOption.isSome) }
  | .learning (.remote p), .outbound =>
    { r with state := .opened, scale := some (agreedScale g.scaleOption p) }
  | .opened, _ | .closing, _ => if g.ack then r else r.reuse g d

/-! ### The handling of one segment (R59) -/

/-- Step 2, SYN. -/
def State.stepSyn (s : State) (l : LaneId) (g : Segment) (d : ClassDecision) : State :=
  if !g.syn then s
  else
    match s.findRecord l g.key with
    | some _ => s.modRecord l g.key fun r => r.onSyn g d
    | none => if g.ack then s else s.createRecord l g.key (.learning g.handshake) d

/-- Step 3, close: RST in either direction, or FIN inbound (R62). -/
def State.stepClose (s : State) (l : LaneId) (g : Segment) : State :=
  if g.rst || (g.fin && decide (g.direction = .inbound)) then
    s.modRecord l g.key fun r => { r with state := .closing }
  else s

/-- Inbound payload of `len` bytes counted on a record (R63). -/
def FlowRecord.countPayload (r : FlowRecord) (len : Nat) (syn : Bool) : FlowRecord :=
  { r with
    epochBytes := min Config.max32 (r.epochBytes + len)
    expected := r.expected - len
    requestOpen := false
    idleTicks := 0
    scale := match r.state with
      | .learning _ => if syn then r.scale else none
      | .opened | .closing => r.scale
    state := match r.state with
      | .learning h => if syn then .learning h else .opened
      | .opened => .opened
      | .closing => .closing }

/-- Step 4, payload. A record of an unknown connection is created first, unless the segment is an opening
SYN, whose creation step 2 has already made or refused (R58, R63). -/
def State.stepPayload (s : State) (l : LaneId) (g : Segment) (d : ClassDecision) : State :=
  if g.direction = .inbound ∧ 0 < g.payloadLen then
    let s1 := if (s.findRecord l g.key).isNone && !(g.syn && !g.ack) then s.createRecord l g.key .opened d else s
    s1.modRecord l g.key fun r => r.countPayload g.payloadLen g.syn
  else s

/-- Step 5, seen. -/
def State.stepSeen (s : State) (l : LaneId) (g : Segment) : State :=
  s.modRecord l g.key fun r => { r with seen := true }

/-- Steps 1 to 5 of a segment report on the flow table (R59). The lookup of R43 is a reading of the table,
so making it for every segment changes nothing where its decision is not used. -/
def State.reportSegment (s : State) (l : LaneId) (g : Segment) : State :=
  let d := s.lookup l g
  (((s.stepSyn l g d).stepClose l g).stepPayload l g d).stepSeen l g

/-- Step 6, request: whether an outbound segment is a request start, on the record as steps 2 to 5 left
it (R65). -/
def State.requestStart (s : State) (l : LaneId) (g : Segment) (d : ClassDecision) : Bool :=
  decide (g.direction = .outbound ∧ 0 < g.payloadLen) && decide (d.role = .request) && !g.rst &&
    !s.holds l g.key &&
    (match s.findRecord l g.key with
     | some r => !r.requestOpen
     | none => true)

/-! ### Charges (R64) -/

/-- A charge on a record: expected rises by the cost, holding at 16,777,215. -/
def FlowRecord.charge (r : FlowRecord) (cost : Nat) : FlowRecord :=
  { r with expected := min Config.max24 (r.expected + cost), requestOpen := true, seen := true }

/-- A charge on the flow table. The record is created from the kept decision if there is none; where
creation is refused the charge applies to nothing and UNTRACKED is counted (R64, R107). -/
def State.chargeRecord (s : State) (l : LaneId) (key : FlowKey) (d : ClassDecision) : State :=
  let s1 := if (s.findRecord l key).isNone then s.createRecord l key .opened d else s
  s1.modRecord l key fun r => r.charge d.cost

/-! ### The epoch tick (R69) -/

/-- Steps 1 and 2 on a record; `held` tells whether its connection has an entry in the lane's queue. -/
def FlowRecord.age (r : FlowRecord) (held : Bool) : FlowRecord :=
  { r with
    dataLastEpoch := decide (0 < r.epochBytes)
    epochBytes := 0
    idleTicks := if r.seen then 0 else if held then r.idleTicks else min 255 (r.idleTicks + 1)
    seen := false }

/-- Steps 3 to 5 on a record: the expectation timeout, then none if the age limit or the close step
removes the record. -/
def FlowRecord.limits (r : FlowRecord) (p : LaneParams) : Option FlowRecord :=
  let r1 := if p.timeout ≤ r.idleTicks then { r with expected := 0, requestOpen := false } else r
  if p.ageLimit ≤ r1.idleTicks then none
  else if r1.state = .closing then none
  else some r1

/-- The five steps of the tick on the records of one lane (R69, R70). -/
def State.ageLane (s : State) (l : LaneId) : State :=
  { s with
    pool := s.pool.filterMap fun r =>
      if r.lane = l then (r.age (s.holds l r.key)).limits (s.lane l).params else some r }

/-- The record in a slot, where its lane is tracking and its connection has been silent since the last
tick with no entry held: the record whose idle ticks the tick has just counted (R69). -/
def State.silentRecord (s : State) (slot : Nat) : Option FlowRecord :=
  match s.pool.find? fun r => r.slot = slot with
  | some r => if (s.lane r.lane).mode.tracking && !r.seen && !s.holds r.lane r.key then some r else none
  | none => none

/-- Steps 3 to 5 of the tick on the record of one slot. -/
def State.limitSlot (s : State) (slot : Nat) : State :=
  { s with
    pool := s.pool.filterMap fun r => if r.slot = slot then r.limits (s.lane r.lane).params else some r }

end Sys2Proof.Machine
end

