-- ==== Sys2Proof/Machine/Flags.lean ====
section
/-! DEFINITION. The part's flags: the event latch, the OVERLOAD conditions and ALERT_N (R177 to R179, R95). -/

namespace Sys2Proof.Machine

/-- The 19 events of the event latch (chapter Keepalive, Events and Counters, The Event Latch). -/
inductive Event where
  | wdog
  | overload (lane : LaneId)
  | gateFlush (lane : LaneId)
  | probe
  | ctlDrop
  deriving DecidableEq, Repr

/-- The bit of an event in the event fields: WDOG 1, OVERLOAD 2 to 256, GATEFLUSH 512 to 65,536, PROBE
131,072, CTLDROP 262,144 (R182). -/
def Event.bit : Event → Nat
  | .wdog => 0
  | .overload l => 1 + l.val
  | .gateFlush l => 9 + l.val
  | .probe => 17
  | .ctlDrop => 18

/-- The event field with one event set. -/
def Event.mask (e : Event) : BitVec 19 := BitVec.ofNat 19 (2 ^ e.bit)

/-- Whether an event is latched. -/
def State.latched (s : State) (e : Event) : Bool := s.latch.getLsbD e.bit

/-- Whether an event is enabled. -/
def State.enabled (s : State) (e : Event) : Bool := s.enables.getLsbD e.bit

/-- An event is latched at its occurrence (R177). -/
def State.latchEvent (s : State) (e : Event) : State := { s with latch := s.latch ||| e.mask }

/-- The condition OVERLOAD[lane]: the lane is tracking and its regime, as last recomputed, is FALLBACK
(R95). -/
def State.overloaded (s : State) (l : LaneId) : Bool :=
  (s.lane l).mode.tracking && decide ((s.lane l).regime = .fallback)

/-- OVERLOAD[lane] is latched whenever its condition holds (R178). -/
def State.latchOverload (s : State) (l : LaneId) : State :=
  if s.overloaded l then s.latchEvent (.overload l) else s

/-- ALERT_N is driven low while an event is both latched and enabled, and released while RST_N is
asserted (R179). True is the low level. -/
def State.alertLow (s : State) : Bool := s.rstN && decide (s.latch &&& s.enables ≠ 0)

end Sys2Proof.Machine
end

