-- ==== Sys2Proof/Machine/GrantEngine.lean ====
section
/-! DEFINITION. The grant engine: the budget, n_max, the regime and the grants (R77 to R95). -/

namespace Sys2Proof.Machine

/-- R_eff (R81). -/
def effectiveRate (p : LaneParams) (rMeas : Option Nat) : Nat :=
  match rMeas with
  | none => p.rNominal
  | some m => min p.rNominal m

/-- B (R80). -/
def budgetOf (p : LaneParams) (rEff : Nat) : Nat :=
  min Config.max24 (p.bufferShare + rEff * p.targetDelay / 16)

/-- n_max (R82). -/
def nMaxOf (p : LaneParams) (budget : Nat) : Nat := min p.quota (budget / p.floorGrant)

/-- The regime for n active records (R83). -/
def regimeOf (p : LaneParams) (budget n : Nat) : Regime :=
  if n * p.floorGrant ≤ budget then .floor else .fallback

/-- The grant of an active record of weight `weight` (R84, R85). -/
def grantOf (p : LaneParams) (budget n totalWeight weight : Nat) : Nat :=
  match regimeOf p budget n with
  | .floor => p.floorGrant + (budget - n * p.floorGrant) * weight / totalWeight
  | .fallback => budget * weight / totalWeight

/-- The grants of a lane's records: active records by the regime, the rest 0 (R86). -/
def State.writeGrants (s : State) (l : LaneId) (budget : Nat) : State :=
  let n := s.n l
  let w := s.w l
  let p := (s.lane l).params
  { s with
    pool := s.pool.map fun r =>
      if r.lane = l then { r with grant := if r.active then grantOf p budget n w r.weight else 0 } else r }

/-- The recompute of one lane, in one step (R87), with the OVERLOAD condition handed on (R91, R95). The
caller answers for the lane being in, or taking, a tracking mode. -/
def State.recompute (s : State) (l : LaneId) : State :=
  let p := (s.lane l).params
  let rEff := effectiveRate p (s.lane l).rMeas
  let b := budgetOf p rEff
  let n := s.n l
  ((s.writeGrants l b).modLane l fun x =>
    { x with rEff := rEff, budget := b, nMax := nMaxOf p b, regime := regimeOf p b n }).latchOverload l

/-- The hand-on of a flow table event to the grant engine: a change of the active set of a tracking lane
recomputes it (R68, R88). `before` is the state the event started from. -/
def State.afterActiveSet (s : State) (l : LaneId) (before : State) : State :=
  if (s.lane l).mode.tracking && decide (s.activeSet l ≠ before.activeSet l) then s.recompute l else s

/-- The admission limit floor(B × Ov / 8) (R105). -/
def LaneState.admissionLimit (x : LaneState) : Nat := x.budget * x.params.overcommit / 8

end Sys2Proof.Machine
end

