-- ==== Sys2Proof/Machine/Rewriter.lean ====
section
/-! DEFINITION. The window rewriter: the window computation, the last edge, the checksum and the FCS
(R122 to R135). -/

namespace Sys2Proof.Machine

/-- The edge term e: the least number of units of 2^s bytes that reaches from N to U, 0 when U is ABSENT or
not right of N by the signed comparison (R127). -/
def edgeTerm (lastEdge : Option SeqNum) (ack : SeqNum) (scale : Nat) : Nat :=
  match lastEdge with
  | none => 0
  | some u => ((u - ack).toInt.toNat + (2 ^ scale - 1)) / 2 ^ scale

/-- fout = min(fin, max(g, e, 1)) (R127). The minimum with the station's field keeps its 0 (R128). -/
def windowOut (grant scale fin : Nat) (lastEdge : Option SeqNum) (ack : SeqNum) : Nat :=
  min fin (max (max (grant / 2 ^ scale) (edgeTerm lastEdge ack scale)) 1)

/-- The right edge a segment shows: N + f × 2^s modulo 2^32 (R129). -/
def rightEdge (ack : SeqNum) (window scale : Nat) : SeqNum := ack + BitVec.ofNat 32 (window * 2 ^ scale)

/-- One's-complement addition of 16 bits, the carry added back (R131). -/
def onesAdd (a b : BitVec 16) : BitVec 16 :=
  let t := a.toNat + b.toNat
  BitVec.ofNat 16 (t % 65536 + t / 65536)

/-- y′ = NOT(NOT y + NOT m + m′) (R131). -/
def updateChecksum (y m m' : BitVec 16) : BitVec 16 := ~~~ (onesAdd (onesAdd (~~~ y) (~~~ m)) m')

/-- The frame with a new window field, its checksum and its FCS (R130 to R132). -/
def rewriteFrame (f : Frame) (g : Segment) (fout : Nat) : Frame :=
  let y := updateChecksum (tcpChecksum f g) (BitVec.ofNat 16 (windowField f g)) (BitVec.ofNat 16 fout)
  withFcs (putBytes (putBytes (contentsOf f) (g.tcpAt + 14) (beBytes 2 fout)) (g.tcpAt + 16) (beBytes 2 y.toNat))

/-- What the rewriter does with a segment that reaches it (Table 7-1). -/
inductive RewriteOutcome where
  /-- Steps 1 to 3: unchanged, nothing recorded. -/
  | pass
  /-- Step 4: unchanged, UNSCALED counted. -/
  | unscaled
  /-- Steps 5 and 7: unchanged, the last edge set from the station's field. -/
  | keep (edge : SeqNum)
  /-- Step 6: the window lowered, LOWERED counted, the last edge set from the written field. -/
  | lower (window : Nat) (edge : SeqNum)
  deriving DecidableEq, Repr

/-- The tests of Table 7-1 in order, on the record as it stands (R123 to R126). -/
def rewriteOutcome (r : Option FlowRecord) (g : Segment) (f : Frame) : RewriteOutcome :=
  if !g.ack || g.syn || g.rst then .pass
  else
    match r with
    | none => .pass
    | some r =>
      match r.scale with
      | none => .unscaled
      | some sc =>
        let n := ackNumber f g
        let fin := windowField f g
        if !r.active then .keep (rightEdge n fin sc)
        else
          let fout := windowOut r.grant sc fin r.lastEdge n
          if fout < fin then .lower fout (rightEdge n fout sc) else .keep (rightEdge n fin sc)

/-- Sets the last edge of the segment's record. -/
def State.setEdge (s : State) (l : LaneId) (key : FlowKey) (edge : SeqNum) : State :=
  s.modRecord l key fun r => { r with lastEdge := some edge }

/-- The rewriter's event on one frame (R122): the frame as it leaves, and the state after. -/
def State.rewrite (s : State) (l : LaneId) (f : Frame) : Frame × State :=
  match segmentOf .outbound f with
  | none => (f, s)
  | some g =>
    match rewriteOutcome (s.findRecord l g.key) g f with
    | .pass => (f, s)
    | .unscaled => (f, s.countLane l .unscaled)
    | .keep edge => (f, s.setEdge l g.key edge)
    | .lower window edge => (rewriteFrame f g window, (s.setEdge l g.key edge).countLane l .lowered)

end Sys2Proof.Machine
end

