-- ==== Sys2Proof/Machine/Gate.lean ====
section
/-! DEFINITION. The request gate: admission, release, re-evaluation, the hold limit, the overflow flush and
the drain (R98 to R120). -/

namespace Sys2Proof.Machine

/-! ### Admission (R105) -/

/-- The connection's record is active. -/
def State.recordActive (s : State) (l : LaneId) (key : FlowKey) : Bool :=
  match s.findRecord l key with
  | some r => r.active
  | none => false

/-- A request of a connection with a cost passes admission. -/
def State.passesAdmission (s : State) (l : LaneId) (key : FlowKey) (cost : Nat) : Bool :=
  decide (s.c l + cost ≤ (s.lane l).admissionLimit) &&
    (s.recordActive l key || decide (s.n l < (s.lane l).nMax))

/-! ### Release (R106 to R108) -/

/-- The release accounting of a request: the charge, then the hand-on of the activation (R107, R92). -/
def State.charge (s : State) (l : LaneId) (key : FlowKey) (d : ClassDecision) : State :=
  (s.chargeRecord l key d).afterActiveSet l s

/-- Rewriting and ready: under ACTIVE and DRAINING the frame goes through the rewriter; then it joins the
ready list (R106, steps 2 and 3; R104 for MONITOR). -/
def State.passOut (s : State) (l : LaneId) (f : Frame) : State :=
  if (s.lane l).mode.enforcing then
    let p := s.rewrite l f
    p.2.makeReady l p.1
  else s.makeReady l f

/-- The accounting of an entry by its kind (R106, step 1). -/
def State.account (s : State) (l : LaneId) (e : QueueEntry) : State :=
  match e.kind with
  | .gated d => s.charge l e.key d
  | .follower => s

/-- The release of the head of a lane's queue (R106). -/
def State.releaseHead (s : State) (l : LaneId) : State :=
  match (s.lane l).queue with
  | [] => s
  | e :: rest => ((s.modLane l fun x => { x with queue := rest }).account l e).passOut l e.frame

/-- The releases of the first `n` entries of a lane's queue, in order, without the admission test. -/
def State.releaseFirst : Nat → LaneId → State → State
  | 0, _, s => s
  | n + 1, l, s => State.releaseFirst n l (s.releaseHead l)

/-- The releases of every entry of a lane's queue, in order. -/
def State.releaseAll (s : State) (l : LaneId) : State := State.releaseFirst (s.lane l).queue.length l s

/-! ### Re-evaluation and the hold limit (R109, R111) -/

/-- Heads are released while they are FOLLOWERs, while they pass admission and, with `force`, while their
held ticks are H or more. The first argument bounds the releases; the queue's length is enough. -/
def State.reevaluateLoop (force : Bool) : Nat → LaneId → State → State
  | 0, _, s => s
  | n + 1, l, s =>
    match (s.lane l).queue with
    | [] => s
    | e :: _ =>
      match e.kind with
      | .follower => State.reevaluateLoop force n l (s.releaseHead l)
      | .gated d =>
        if force && decide ((s.lane l).params.holdLimit ≤ e.heldTicks) then
          State.reevaluateLoop force n l ((s.releaseHead l).countLane l .forced)
        else if s.passesAdmission l e.key d.cost then State.reevaluateLoop force n l (s.releaseHead l)
        else s

/-- A re-evaluation: on a lane in ACTIVE only (R109). -/
def State.reevaluate (s : State) (l : LaneId) : State :=
  if (s.lane l).mode = .active then State.reevaluateLoop false (s.lane l).queue.length l s else s

/-- Held ticks rise by 1, holding at 255 (R111). -/
def QueueEntry.tick (e : QueueEntry) : QueueEntry := { e with heldTicks := min 255 (e.heldTicks + 1) }

/-- The gate's tick on one lane (R111). -/
def State.gateTickLane (l : LaneId) (s : State) : State :=
  if (s.lane l).mode.enforcing then
    let s1 := s.modLane l fun x => { x with queue := x.queue.map QueueEntry.tick }
    if (s.lane l).mode = .active then State.reevaluateLoop true (s.lane l).queue.length l s1 else s1
  else s

/-- Whether a lane in ACTIVE has a GATED head whose held ticks have reached H (R111). -/
def LaneState.headAtLimit (x : LaneState) : Bool :=
  decide (x.mode = .active) &&
    (match x.queue with
     | e :: _ =>
       (match e.kind with
        | .gated _ => decide (x.params.holdLimit ≤ e.heldTicks)
        | .follower => false)
     | [] => false)

/-! ### The hand-on of a flow table event (R68, R91) -/

/-- What the event tells the gate: a fall of C or of n, or a rise of B. -/
def State.gateCause (s : State) (l : LaneId) (before : State) : Bool :=
  decide (s.c l < before.c l) || decide (s.n l < before.n l) ||
    decide ((before.lane l).budget < (s.lane l).budget)

/-- At the end of a flow table event on a tracking lane its effects are handed on once, to the grant engine and to
the gate (R68). On a lane in BYPASS or FAILSAFE nothing is handed on (R26). The recompute comes before the
re-evaluation, an order R68 leaves open: DESIGN CHOICE: notes/assumptions/20.md. -/
def State.handOn (s : State) (l : LaneId) (before : State) : State :=
  let s1 := s.afterActiveSet l before
  if (s.lane l).mode.tracking && s1.gateCause l before then s1.reevaluate l else s1

/-- A recompute of its own, and the hand-on of a rise of B to the gate (R91). -/
def State.recomputeHandOn (s : State) (l : LaneId) : State :=
  let s1 := s.recompute l
  if (s.lane l).budget < (s1.lane l).budget then s1.reevaluate l else s1

/-- The flow table's tick work on one lane, one event (R70). -/
def State.flowTickLane (l : LaneId) (s : State) : State :=
  if (s.lane l).mode.tracking then (s.ageLane l).handOn l s else s

/-! ### The drain (R24, R33, R117) -/

/-- A DRAINING lane whose queue is empty enters its drain target (R33). -/
def State.finishDrain (s : State) (l : LaneId) : State :=
  if (s.lane l).mode = .draining ∧ (s.lane l).queue = [] then
    s.modLane l fun x =>
      { x with
        mode := match x.target with
          | .monitor => .monitor
          | .bypass | .none => .bypass
        target := .none }
  else s

/-- A drain release is due: the lane is DRAINING, its ready list is empty and its queue is not (R117). -/
def LaneState.drainDue (x : LaneState) : Bool := decide (x.mode = .draining ∧ x.ready = [] ∧ x.queue ≠ [])

/-- Drain releases while they are due. A released frame that starts at once empties the ready list again,
so a lane with an IDLE output releases a second head. -/
def State.drainLoop : Nat → LaneId → State → State
  | 0, _, s => s
  | n + 1, l, s =>
    if (s.lane l).drainDue then State.drainLoop n l ((s.releaseHead l).finishDrain l) else s

/-- The drain releases due on a lane (R117). -/
def State.drain (s : State) (l : LaneId) : State := State.drainLoop (s.lane l).queue.length l s

/-! ### Arrivals (R101, R103, R104, R113) -/

/-- Room for one more frame in a lane's queue and in the store (R99). -/
def State.roomFor (s : State) (l : LaneId) (f : Frame) : Bool :=
  decide ((s.lane l).queue.length < Config.queueEntries) && decide (cellsOf f.length ≤ s.freeCells)

/-- An append at the tail with held ticks 0 (R98), with its counter. -/
def State.appendEntry (s : State) (l : LaneId) (kind : EntryKind) (key : FlowKey) (f : Frame) : State :=
  (s.modLane l fun x => { x with queue := x.queue ++ [⟨kind, key, f, 0⟩] }).countLane l
    (match kind with
     | .gated _ => .gated
     | .follower => .followed)

/-- The overflow flush: every entry is released, then the arriving frame passes, charged when it is a
request start; a DRAINING lane then enters its target (R113, R114). -/
def State.overflowFlush (s : State) (l : LaneId) (kind : EntryKind) (key : FlowKey) (f : Frame) : State :=
  let s1 := (s.releaseAll l).account l ⟨kind, key, f, 0⟩
  ((((s1.passOut l f).countLane l .flushes).latchEvent (.gateFlush l)).finishDrain l)

/-- An arriving frame the gate is to hold: appended when there is room, else an overflow flush. -/
def State.hold (s : State) (l : LaneId) (kind : EntryKind) (key : FlowKey) (f : Frame) : State :=
  if s.roomFor l f then s.appendEntry l kind key f else s.overflowFlush l kind key f

/-- The gate's stage and what follows it for an outbound segment of a tracking lane, with the flow table's
request-start decision (R14, stages 2 to 4). -/
def State.gateArrival (s : State) (l : LaneId) (g : Segment) (f : Frame) (start : Bool) (d : ClassDecision) : State :=
  if (s.lane l).mode.enforcing && s.holds l g.key then s.hold l .follower g.key f
  else if start then
    if (s.lane l).mode = .active ∧ ¬ ((s.lane l).queue = [] ∧ s.passesAdmission l g.key d.cost) then
      s.hold l (.gated d) g.key f
    else (s.charge l g.key d).passOut l f
  else s.passOut l f

/-! ### Keepalive expiry (R119) -/

/-- The releases of keepalive expiry: in queue order, uncharged, with every byte as the station sent it. -/
def State.failsafeRelease (s : State) (l : LaneId) : State :=
  (s.lane l).queue.foldl (fun s e => s.makeReady l e.frame) (s.modLane l fun x => { x with queue := [] })

end Sys2Proof.Machine
end

