-- ==== Sys2Proof/Machine/ProbeEngine.lean ====
section
/-! DEFINITION. The rate probe: requests, grants, windows, completion and abandonment (R141 to R152). -/

namespace Sys2Proof.Machine

/-- The window length Wp of a request (R141). -/
def ProbeKind.window : ProbeKind → Nat
  | .long => 8
  | .short => 2

/-- The request the engine serves, when it is not IDLE. -/
def ProbeEngine.serving : ProbeEngine → Option ProbeRequest
  | .idle => none
  | .waiting r | .measuring r => some r

/-! ### Grants (R146) -/

/-- The first request of a queue whose lane is in MONITOR or ACTIVE, with the queue after it; requests
ahead of it are discarded. -/
def State.nextServed (s : State) : List ProbeRequest → Option (ProbeRequest × List ProbeRequest)
  | [] => none
  | r :: rest => if (s.lane r.lane).mode.served then some (r, rest) else s.nextServed rest

/-- The engine, when IDLE, is granted to the head of the queue. -/
def State.grantProbe (s : State) : State :=
  if s.probe.engine = .idle then
    match s.nextServed s.probe.queue with
    | some (r, rest) => { s with probe := ⟨rest, .waiting r, 0, 0, true⟩ }
    | none => { s with probe := { s.probe with queue := [] } }
  else s

/-- The engine becomes IDLE, its window discarded, and is granted to the next head. -/
def State.freeProbe (s : State) : State :=
  State.grantProbe { s with probe := ⟨s.probe.queue, .idle, 0, 0, true⟩ }

/-! ### Requests (R143) -/

/-- LONG if either kind is LONG. -/
def ProbeKind.join : ProbeKind → ProbeKind → ProbeKind
  | .short, .short => .short
  | .short, .long | .long, _ => .long

/-- Whether the queue holds a request for a lane. -/
def State.probeQueued (s : State) (l : LaneId) : Bool := s.probe.queue.any fun r => r.lane = l

/-- A request for a lane is merged into the lane's queued request, or appended at the tail; an IDLE engine
is then granted. -/
def State.requestProbe (s : State) (l : LaneId) (k : ProbeKind) : State :=
  if s.probeQueued l then
    { s with
      probe := { s.probe with
        queue := s.probe.queue.map fun r => if r.lane = l then { r with kind := r.kind.join k } else r } }
  else State.grantProbe { s with probe := { s.probe with queue := s.probe.queue ++ [⟨l, k⟩] } }

/-! ### Mode changes and the timebase (R144, R151) -/

/-- The lane has left MONITOR and ACTIVE: its queued request is removed, and a probe serving it is
abandoned. -/
def State.leaveProbe (s : State) (l : LaneId) : State :=
  let s1 := { s with probe := { s.probe with queue := s.probe.queue.filter fun r => r.lane ≠ l } }
  match s.probe.engine.serving with
  | some r => if r.lane = l then s1.freeProbe else s1
  | none => s1

/-- A staged timebase abandons a probe that is WAITING or MEASURING. -/
def State.abandonProbe (s : State) : State :=
  match s.probe.engine.serving with
  | some _ => s.freeProbe
  | none => s

/-! ### Measuring (R147 to R150) -/

/-- The payload length of a reported inbound segment, counted while MEASURING on its lane (R148). -/
def State.probeCount (s : State) (l : LaneId) (len : Nat) : State :=
  match s.probe.engine with
  | .measuring r =>
    if r.lane = l then { s with probe := { s.probe with byteCount := min Config.max40 (s.probe.byteCount + len) } }
    else s
  | .idle | .waiting _ => s

/-- The rate a valid window gives: floor(bytes / Wp), clamped from max(1, floor(R_nominal / 16)) to
R_nominal (R150). -/
def measuredRate (bytes window rNominal : Nat) : Nat := clampTo (max 1 (rNominal / 16)) rNominal (bytes / window)

/-- The completion of a probe on the served lane (R150). -/
def State.completeProbe (s : State) (r : ProbeRequest) : State :=
  let s1 :=
    if s.probe.valid then
      let rate := measuredRate s.probe.byteCount r.kind.window (s.lane r.lane).params.rNominal
      (s.modLane r.lane fun x => { x with rMeas := some rate }).recomputeHandOn r.lane
    else s.countLane r.lane .probeUnsat
  let s2 := s1.latchEvent .probe
  State.grantProbe { s2 with probe := { s2.probe with engine := .idle } }

/-- The backlog test: C is at least floor(B / 2) (R149). -/
def State.backlogged (s : State) (l : LaneId) : Bool := decide ((s.lane l).budget / 2 ≤ s.c l)

/-- A window tick of a MEASURING engine: the count, the test and, at the end tick, the completion (R149). -/
def State.windowTick (s : State) (r : ProbeRequest) : State :=
  let s1 := { s with
    probe := { s.probe with
      windowTicks := s.probe.windowTicks + 1
      valid := s.probe.valid && s.backlogged r.lane } }
  if r.kind.window ≤ s1.probe.windowTicks then s1.completeProbe r else s1

/-- The engine's work at a tick, by its state (R152, step 1). -/
def State.engineTick (s : State) : State :=
  match s.probe.engine with
  | .idle => s
  | .waiting r => { s with probe := { s.probe with engine := .measuring r } }
  | .measuring r => s.windowTick r

/-- Whether the next tick is the end tick of the engine's window. -/
def State.endTickNext (s : State) : Bool :=
  match s.probe.engine with
  | .measuring r => decide (r.kind.window ≤ s.probe.windowTicks + 1)
  | .idle | .waiting _ => false

/-- The interval count of a lane at a tick: on an ACTIVE lane with K not 0 it rises by 1 and, on reaching K,
returns to 0 and raises a SHORT request (R142). -/
def State.intervalTick (l : LaneId) (s : State) : State :=
  if (s.lane l).mode = .active ∧ (s.lane l).params.probeInterval ≠ 0 then
    if (s.lane l).params.probeInterval ≤ (s.lane l).intervalCount + 1 then
      (s.modLane l fun x => { x with intervalCount := 0 }).requestProbe l .short
    else s.modLane l fun x => { x with intervalCount := x.intervalCount + 1 }
  else s

/-- Whether the next tick brings a lane's interval count to K. -/
def LaneState.intervalDue (x : LaneState) : Bool :=
  decide (x.mode = .active ∧ x.params.probeInterval ≠ 0 ∧ x.params.probeInterval ≤ x.intervalCount + 1)

end Sys2Proof.Machine
end

