-- ==== Sys2Proof/Machine/ModeController.lean ====
section
/-! DEFINITION. The lane mode controller: SET-LANE-MODE's truth table, the entries to the modes, RELEASE-LANE
and keepalive expiry on a lane (R20 to R36). -/

namespace Sys2Proof.Machine

def State.setMode (s : State) (l : LaneId) (m : Mode) (t : DrainTarget) : State :=
  s.modLane l fun x => { x with mode := m, target := t }

/-- Entry to MONITOR from BYPASS or FAILSAFE: the lane's records are removed, R_meas becomes absent, the
interval count 0, and the lane is recomputed (R29). -/
def State.enterMonitor (s : State) (l : LaneId) : State :=
  ((s.removeLaneRecords l).modLane l fun x =>
    { x with mode := .monitor, target := .none, rMeas := none, intervalCount := 0 }).recompute l

/-- Entry to ACTIVE: the interval count becomes 0 and a LONG probe is requested (R30, R32). -/
def State.enterActive (s : State) (l : LaneId) : State :=
  (s.modLane l fun x => { x with mode := .active, target := .none, intervalCount := 0 }).requestProbe l .long

/-- Entry to BYPASS from a tracking mode: the lane leaves the probe's service (R31, R35). -/
def State.enterBypass (s : State) (l : LaneId) : State := (s.setMode l .bypass .none).leaveProbe l

/-- SET-LANE-MODE away from ACTIVE with entries held: DRAINING with a target; the lane leaves the probe's
service and the drain begins (R31, R117). -/
def State.enterDraining (s : State) (l : LaneId) (t : DrainTarget) : State :=
  ((s.setMode l .draining t).leaveProbe l).drain l

/-- The return from DRAINING to ACTIVE: the held entries are gated again from the head (R32, R118). -/
def State.returnToActive (s : State) (l : LaneId) : State :=
  ((s.setMode l .active .none).reevaluate l).enterActive l

/-- The truth table of R28, by the current and the requested mode; none for NOT-NOW. -/
def State.changeMode (s : State) (l : LaneId) (req : RequestedMode) : Option State :=
  match (s.lane l).mode, req with
  | .bypass, .bypass => some s
  | .bypass, .monitor => some (s.enterMonitor l)
  | .bypass, .active => none
  | .monitor, .bypass => some (s.enterBypass l)
  | .monitor, .monitor => some s
  | .monitor, .active => if 1 ≤ (s.lane l).nMax then some (s.enterActive l) else none
  | .active, .bypass =>
    if (s.lane l).queue = [] then some (s.enterBypass l) else some (s.enterDraining l .bypass)
  | .active, .monitor =>
    if (s.lane l).queue = [] then some (s.setMode l .monitor .none) else some (s.enterDraining l .monitor)
  | .active, .active => some s
  | .draining, .bypass => some (s.setMode l .draining .bypass)
  | .draining, .monitor => some (s.setMode l .draining .monitor)
  | .draining, .active => some (s.returnToActive l)
  | .failsafe, .bypass => some (s.setMode l .bypass .none)
  | .failsafe, .monitor => some (s.enterMonitor l)
  | .failsafe, .active => none

/-- Checks 4 and 5 of R27: MONITOR and ACTIVE are refused while the keepalive monitor is EXPIRED. -/
def State.requestMode (s : State) (l : LaneId) (req : RequestedMode) : Option State :=
  if s.keepalive.state = .expired ∧ req ≠ .bypass then none else s.changeMode l req

/-- RELEASE-LANE's releases: the whole queue of a lane in ACTIVE or DRAINING, in order, without the
admission test; a DRAINING lane then enters its target (R116, R33). -/
def State.releaseLane (s : State) (l : LaneId) : State :=
  if (s.lane l).mode.enforcing then (s.releaseAll l).finishDrain l else s

/-- Keepalive expiry on one lane: a tracking lane releases its queue and goes to FAILSAFE (R34, R119). -/
def State.expireLane (l : LaneId) (s : State) : State :=
  if (s.lane l).mode.tracking then ((s.failsafeRelease l).setMode l .failsafe .none).leaveProbe l else s

/-- Every lane is in BYPASS or FAILSAFE (R171). -/
def State.allAtRest (s : State) : Bool := allLanes.all fun l => !(s.lane l).mode.tracking

end Sys2Proof.Machine
end

