-- ==== Sys2Proof/Machine/Time.lean ====
section
/-! DEFINITION. Time: the epoch timer, the timebase change and the keepalive monitor (R136 to R140, R173 to
R176). -/

namespace Sys2Proof.Machine

/-! ### The epoch timer -/

/-- The timebase change on the grant engine: R_meas becomes ABSENT on every lane, and every tracking lane
is recomputed (R139, R94). -/
def State.forgetRates (s : State) : State :=
  forEachLane (fun l s => s.modLane l fun x => { x with rMeas := none }) s

/-- The recompute a timebase change brings to one lane. -/
def State.rebaseLane (l : LaneId) (s : State) : State :=
  if (s.lane l).mode.tracking then s.recomputeHandOn l else s

/-- A staged pair takes effect, and the timebase change reaches the grant engine and the probe (R139). -/
def State.takeStaged (s : State) : State :=
  match s.timer.staged with
  | none => s
  | some (p, e) =>
    let s1 := { s with timer := { s.timer with prescale := p, epochDivisor := e, staged := none } }
    (forEachLane State.rebaseLane s1.forgetRates).abandonProbe

/-- The timer's own event at an epoch tick (R137): both counts return to 0, the epoch number rises by 1 and
from 65535 returns to 0, and a staged pair takes effect. -/
def State.timerTick (s : State) : State :=
  State.takeStaged { s with
    timer := { s.timer with
      prescaleCount := 0
      epochCount := 0
      epochNumber := (s.timer.epochNumber + 1) % 65536 } }

/-- The events of one epoch tick: the timer's own, and those of the four blocks it is delivered to (R137). -/
def tickEvents : List Instr := [.epochTick, .flowTableTick, .gateTick, .probeTick, .keepaliveTick]

/-- An order of a list, chosen by a number: the least significant digits of `k`, to the base of what is
left, name the next element. The first argument is the list's length. -/
def orderBy {α : Type} : Nat → Nat → List α → List α
  | 0, _, xs => xs
  | n + 1, k, xs =>
    match xs[k % xs.length]? with
    | some x => x :: orderBy n (k / xs.length) (xs.eraseIdx (k % xs.length))
    | none => xs

/-- One cycle of the reference clock (R136). When the epoch count reaches E the epoch tick's events are
due, in an order the manual leaves open (notes/assumptions/3.md). -/
def State.clockCycle (s : State) : State :=
  if s.clocked then
    if s.timer.prescaleCount + 1 < s.timer.prescale then
      { s with timer := { s.timer with prescaleCount := s.timer.prescaleCount + 1 } }
    else if s.timer.epochCount + 1 < s.timer.epochDivisor then
      { s with timer := { s.timer with prescaleCount := 0, epochCount := s.timer.epochCount + 1 } }
    else
      { s with
        timer := { s.timer with prescaleCount := 0, epochCount := 0 }
        pending := s.pending ++ orderBy tickEvents.length (Config.tickOrder s.orderIndex) tickEvents
        orderIndex := s.orderIndex + 1 }
  else s

/-! ### The keepalive monitor -/

/-- An expiry: the monitor becomes EXPIRED, WDOG is latched and every tracking lane goes to FAILSAFE
(R175). -/
def State.expire (s : State) : State :=
  forEachLane State.expireLane
    (State.latchEvent { s with keepalive := { s.keepalive with state := .expired } } .wdog)

/-- Whether the next tick brings a RUNNING monitor's count to T (R174). -/
def State.expiryNext (s : State) : Bool :=
  decide (s.keepalive.state = .running ∧ s.keepalive.period ≤ s.keepalive.count + 1)

/-- The tick at the keepalive monitor (R174). -/
def State.monitorTick (s : State) : State :=
  if s.keepalive.state = .running then
    let s1 := { s with keepalive := { s.keepalive with count := s.keepalive.count + 1 } }
    if s.expiryNext then s1.expire else s1
  else s

/-- KEEPALIVE at the monitor (R162, Table 10-1). -/
def Keepalive.clear (k : Keepalive) : Keepalive where
  period := k.period
  count := 0
  state := if k.period = 0 then .off else .running

/-- WRITE-CHIP's T at the monitor (R164, Table 10-1). -/
def Keepalive.write (k : Keepalive) (period : Nat) : Keepalive where
  period := period
  count := 0
  state := if period = 0 then .off
    else
      match k.state with
      | .off | .running => .running
      | .expired => .expired

end Sys2Proof.Machine
end

