-- ==== Sys2Proof/Machine/ControlEngine.lean ====
section
/-! DEFINITION. The control engine: acceptance, the walk over a frame's commands, result space, the response
frame and its hand-over (R154 to R161, R17). -/

namespace Sys2Proof.Machine

/-! ### The frame in service -/

/-- The control payload of a frame: the bytes after the EtherType, up to the byte before the FCS (R155). -/
def controlPayload (f : Frame) : List Byte :=
  match etherHeader f with
  | some h => (contentsOf f).drop h.netAt
  | none => []

/-- A control frame whose header is malformed (R155): too short, too long, version or count. -/
def isMalformed (payload : List Byte) : Bool :=
  decide (payload.length < 6) || decide (Config.maxPayload < payload.length) ||
    decide (byteAt payload 0 ≠ 1) || decide (byteAt payload 4 = 0) || decide (32 < byteAt payload 4)

/-- A frame as it is taken from the FIFO: the response opened, the item headers reserved (R157, R160). -/
def openService (l : LaneId) (f : Frame) : InService :=
  let payload := controlPayload f
  { lane := l
    frame := f
    payload := payload
    position := 6
    remaining := byteAt payload 4
    items := []
    space := Config.maxPayload - 6 - 4 * byteAt payload 4
    abandoned := false }

/-- The parameter length byte of the next command. -/
def InService.paramLength (f : InService) : Nat := byteAt f.payload (f.position + 1)

/-- The code byte of the next command, 0x00 where it lies past the payload (R158). -/
def InService.codeByte (f : InService) : Byte := (f.payload.drop f.position).headD 0

/-- The next command runs past the payload, or its parameter length is above 250 (R158). -/
def InService.overrun (f : InService) : Bool :=
  decide (f.payload.length < f.position + 2) || decide (Config.maxParams < f.paramLength) ||
    decide (f.payload.length < f.position + 2 + f.paramLength)

/-- The parameter bytes of the next command. -/
def InService.params (f : InService) : List Byte := bytesAt f.payload (f.position + 2) f.paramLength

/-- The command set of Table 9-3. -/
def commandSet : List Byte :=
  [0x01, 0x02, 0x03, 0x04, 0x05, 0x10, 0x11, 0x12, 0x13, 0x14, 0x15, 0x16, 0x20, 0x21, 0x30, 0x31, 0x7F]

/-- The command the engine executes next: of the count, not abandoned, not an overrun, of the command set. -/
def InService.next (f : InService) : Option (Byte × List Byte) :=
  if f.remaining = 0 ∨ f.abandoned = true ∨ f.overrun = true ∨ f.codeByte ∉ commandSet then none
  else some (f.codeByte, f.params)

/-- The next command is decided: its item is written, its results are taken from the space, and the walk
moves past its bytes (R157, R160). A command ABANDONED abandons every later one (R158, R160). -/
def InService.decideNext (f : InService) (status : Status) (results : List Byte) : InService :=
  { f with
    position := f.position + 2 + f.paramLength
    remaining := f.remaining - 1
    items := f.items ++ [⟨f.codeByte, status.code, results⟩]
    space := f.space - results.length
    abandoned := f.abandoned || decide (status = .abandoned) }

/-- The walk over commands that are not executed: ABANDONED ones and ones of no defined code (R158, R159).
The first argument bounds the walk; the commands remaining are enough. -/
def InService.walk : Nat → InService → InService
  | 0, f => f
  | n + 1, f =>
    if f.remaining = 0 then f
    else if f.abandoned || f.overrun then InService.walk n (f.decideNext .abandoned [])
    else if f.codeByte ∈ commandSet then f
    else InService.walk n (f.decideNext .unknown [])

/-! ### The response frame (R161) -/

/-- An item of a response (Table 11-1). -/
def ResponseItem.bytes (i : ResponseItem) : List Byte :=
  [i.code, i.status] ++ beBytes 2 i.results.length ++ i.results

/-- The control payload of the response to a frame. -/
def InService.responsePayload (f : InService) : List Byte :=
  [1, BitVec.ofNat 8 (byteAt f.payload 1) ||| 0x80] ++ bytesAt f.payload 2 2 ++ bytesAt f.payload 4 1 ++ [0] ++
    f.items.flatMap ResponseItem.bytes

/-- The VLAN tags of the command frame, which the response repeats. -/
def InService.tags (f : InService) : List Byte :=
  match etherHeader f.frame with
  | some h => vlanTags f.frame h
  | none => []

/-- The response frame without its FCS, padded with zero bytes so that the frame is at least 64 bytes. -/
def InService.responseContents (f : InService) (etherType : Nat) (addr : BitVec 4) : List Byte :=
  let bytes := source f.frame ++ chipAddress addr ++ f.tags ++ beBytes 2 etherType ++ f.responsePayload
  bytes ++ zeros (60 - bytes.length)

/-- The response frame. -/
def InService.response (f : InService) (etherType : Nat) (addr : BitVec 4) : Frame :=
  withFcs (f.responseContents etherType addr)

/-! ### The engine -/

/-- The engine after a walk: EXECUTING while a command waits for its execution; with the last command
decided the response is complete and the engine is in HAND-OVER (R157, R161). -/
def State.serve (s : State) (f : InService) : State :=
  let f' := InService.walk f.remaining f
  { s with
    control := { s.control with
      engine :=
        if f'.remaining = 0 then .handOver f'.lane (f'.response s.control.etherType s.straps.addr)
        else .executing f' } }

/-- The engine, when IDLE, takes the head of the FIFO (R157). -/
def State.takeFrame (s : State) : State :=
  match s.control.engine, s.control.fifo with
  | .idle, (l, f) :: rest => State.serve { s with control := { s.control with fifo := rest } } (openService l f)
  | _, _ => s

/-- The hand-over of a control frame from a lane path: malformed, appended, or dropped with the FIFO full
(R155, R156). -/
def State.receiveControl (s : State) (l : LaneId) (f : Frame) : State :=
  if isMalformed (controlPayload f) then
    State.latchEvent { s with control := { s.control with malformed := bump s.control.malformed } } .ctlDrop
  else if s.control.fifo.length < Config.fifoFrames then
    State.takeFrame { s with
      control := { s.control with fifo := s.control.fifo ++ [(l, f)], accepted := bump s.control.accepted } }
  else
    State.latchEvent { s with control := { s.control with fifoFull := bump s.control.fifoFull } } .ctlDrop

/-- The arbiter takes the response that waits in HAND-OVER into the lane's empty response slot; with the
output IDLE it starts at once. The engine is then IDLE and takes the next frame (R17, R161). With the slot
full the hand-over waits. -/
def State.takeHandOver (s : State) : State :=
  match s.control.engine with
  | .handOver l r =>
    if (s.lane l).response = none then
      let s1 := s.modLane l fun x =>
        if x.output = none then { x with output := some r } else { x with response := some r }
      State.takeFrame { s1 with control := { s1.control with engine := .idle } }
    else s
  | .idle | .executing _ => s

/-- The lane's output has finished a frame and starts the response in the slot, else the head of the ready
list, else it is IDLE (R16). -/
def LaneState.nextOutput (x : LaneState) : LaneState :=
  match x.response, x.ready with
  | some r, _ => { x with output := some r, response := none }
  | none, f :: rest => { x with output := some f, ready := rest }
  | none, [] => { x with output := none }

/-- A response waiting for this lane's slot is taken when the one in it starts to be sent (R17, R161). -/
def State.offerSlot (s : State) (l : LaneId) : State :=
  match s.control.engine with
  | .handOver l' _ => if l' = l then s.takeHandOver else s
  | .idle | .executing _ => s

/-- The end of a frame on a lane's fabric-side output (R16, R17), and the drain release that an emptied
ready list makes (R117). -/
def State.endFrame (s : State) (l : LaneId) : State :=
  match (s.lane l).output with
  | none => s
  | some f =>
    let s1 := (s.sendFabric l f).modLane l LaneState.nextOutput
    if (s.lane l).response.isSome then (s1.offerSlot l).drain l else s1.drain l

/-! ### The execution of one command -/

/-- What a command's execution gives: its status, its results and the state after it. -/
structure CommandOutcome where
  status : Status
  results : List Byte
  state : State

/-- A command refused by a check: no results, nothing changed (R159). -/
def refuse (status : Status) (s : State) : CommandOutcome := ⟨status, [], s⟩

/-- The space check of R159 (check 5): a command whose full result length does not fit is ABANDONED. -/
def withSpace (full space : Nat) (s : State) (o : CommandOutcome) : CommandOutcome :=
  if space < full then refuse .abandoned s else o

/-- The result space of a frame of one command (R160). -/
def soleSpace : Nat := Config.maxPayload - 6 - 4

/-- The result space the engine has for a command with this code and these parameters, none when it does not
execute it now. EXECUTING, it executes the next command of the frame in service and no other (R157, R172).
IDLE, it executes a command given alone, as a frame of that one command would bring it, provided a frame can
reach the part at all (DESIGN CHOICE: notes/assumptions/2.md). In HAND-OVER it executes none (R17). -/
def State.spaceFor (s : State) (code : Byte) (params : List Byte) : Option Nat :=
  match s.control.engine with
  | .executing f => if s.rstN ∧ f.next = some (code, params) then some f.space else none
  | .idle =>
    if s.clocked = true ∧ params.length ≤ Config.maxParams ∧
        (allLanes.any fun l => controlEnabled s.straps.ctlsel l) = true then some soleSpace
    else none
  | .handOver _ _ => none

/-- The outcome of a command is written into its item, and the engine walks on (R157). After a CHIP-RESET of
status OK every later command is ABANDONED (R171), which `last` says. -/
def State.writeItem (s : State) (code : Byte) (o : CommandOutcome) (last : Bool) : State :=
  let s1 := { o.state with lastItem := some ⟨code, o.status.code, o.results⟩ }
  match s.control.engine with
  | .executing f =>
    let f1 := f.decideNext o.status o.results
    s1.serve { f1 with abandoned := f1.abandoned || (last && decide (o.status = .ok)) }
  | .idle | .handOver _ _ => s1

/-- The execution of one command by the control engine, as one event (R157). -/
def State.runCommand (s : State) (code : Byte) (params : List Byte) (last : Bool)
    (effect : List Byte → Nat → State → CommandOutcome) : State :=
  match s.spaceFor code params with
  | some space => s.writeItem code (effect params space s) last
  | none => s

end Sys2Proof.Machine
end

