-- ==== Sys2Proof/Machine/Commands.lean ====
section
/-! DEFINITION. The effect of each control engine command on the blocks it acts on, with its checks, its
status and its results (R27, R50 to R53, R73 to R75, R79, R116, R138, R145, R162 to R171; Table 11-2). Each
takes the parameter bytes, the result space left and the state. -/

namespace Sys2Proof.Machine

/-- Check 3 of R159 for a command whose first parameter byte is a lane. -/
def withLane (params : List Byte) (s : State) (k : LaneId → CommandOutcome) : CommandOutcome :=
  match laneOf (byteAt params 0) with
  | some l => k l
  | none => refuse .badLane s

/-- Check 2 of R159: the least parameter length. -/
def withLength (least : Nat) (params : List Byte) (s : State) (o : CommandOutcome) : CommandOutcome :=
  if params.length < least then refuse .short s else o

/-- OK, or CLAMPED where the command's own rule reports a clamp (R159, check 7). -/
def okOr (clamped : Bool) : Status := if clamped then .clamped else .ok

/-! ### Readouts (chapter Formats, Signals and Straps) -/

/-- The lane readout, 47 bytes. -/
def State.laneReadout (s : State) (l : LaneId) : List Byte :=
  let x := s.lane l
  x.params.bytes ++ [x.mode.code, x.target.code] ++ beBytes 3 x.budget ++ beBytes 3 x.rEff ++ optBytes 3 x.rMeas ++
    beBytes 2 x.nMax ++ [x.regime.code] ++ beBytes 2 (s.n l) ++ beBytes 2 (s.w l) ++ beBytes 5 (s.c l) ++
    beBytes 1 x.queue.length ++ beBytes 2 (s.laneCells l) ++ beBytes 2 (s.recordCount l)

/-- The probe engine in the chip readout, 9 bytes: all but the state 0 when IDLE. -/
def Probe.engineBytes (p : Probe) : List Byte :=
  let served (state : Byte) (r : ProbeRequest) : List Byte :=
    [state, BitVec.ofNat 8 r.lane.val, r.kind.code] ++ beBytes 1 p.windowTicks ++ beBytes 5 p.byteCount
  match p.engine with
  | .idle => zeros 9
  | .waiting r => served 1 r
  | .measuring r => served 2 r

/-- The probe queue in the chip readout, head first, with unused entries zero fill: 17 bytes. -/
def Probe.queueBytes (p : Probe) : List Byte :=
  let entries := p.queue.flatMap fun r => [BitVec.ofNat 8 r.lane.val, r.kind.code]
  beBytes 1 p.queue.length ++ entries ++ zeros (16 - entries.length)

/-- The staged pair in the chip readout, 5 bytes. -/
def Timer.stagedBytes (t : Timer) : List Byte :=
  match t.staged with
  | some (p, e) => [1] ++ beBytes 2 p ++ beBytes 2 e
  | none => zeros 5

/-- The chip readout, 67 bytes. -/
def State.chipReadout (s : State) : List Byte :=
  beBytes 2 s.timer.epochNumber ++ beBytes 2 s.timer.prescale ++ beBytes 2 s.timer.epochDivisor ++
    s.timer.stagedBytes ++ [s.keepalive.state.code] ++ beBytes 1 s.keepalive.count ++ beBytes 1 s.keepalive.period ++
    allLanes.map (fun l => (s.lane l).mode.code) ++ allLanes.map (fun l => (s.lane l).target.code) ++
    s.probe.engineBytes ++ s.probe.queueBytes ++ beBytes 3 s.latch.toNat ++ beBytes 3 s.enables.toNat ++
    beBytes 2 s.control.etherType ++
    [BitVec.ofNat 8 s.straps.addr.toNat, BitVec.ofNat 8 s.straps.ctlsel.toNat, BitVec.ofNat 8 s.straps.spd.toNat]

/-- The flow record readout, 80 bytes. -/
def State.recordReadout (s : State) (r : FlowRecord) : List Byte :=
  beBytes 2 r.slot ++ beBytes 1 r.lane.val ++ [r.key.version.code] ++ addrField r.key.stationAddr ++
    beBytes 2 r.key.stationPort ++ addrField r.key.remoteAddr ++ beBytes 2 r.key.remotePort ++
    [r.state.code, orFF r.scale] ++ r.state.handshakeBytes ++ [orFF r.cls] ++ beBytes 1 r.weight ++
    beBytes 3 r.grant ++ optBytes 4 (r.lastEdge.map (·.toNat)) ++ beBytes 3 r.expected ++
    [boolByte r.requestOpen] ++ beBytes 4 r.epochBytes ++ [boolByte r.dataLastEpoch] ++ beBytes 1 r.idleTicks ++
    [boolByte r.seen, boolByte r.active] ++ beBytes 1 (s.entriesOf r.lane r.key) ++ zeros 13

/-- The entry of an index with the index before it, 15 bytes. -/
def State.classReadout (s : State) (i : Fin 64) : List Byte :=
  beBytes 1 i.val ++ (s.windows.get i).bytes

/-- The keepalive, EtherType and enable fields of WRITE-CHIP as stored, 6 bytes. -/
def State.chipSettings (s : State) : List Byte :=
  beBytes 2 s.control.etherType ++ beBytes 1 s.keepalive.period ++ beBytes 3 s.enables.toNat

/-! ### Chip commands -/

/-- KEEPALIVE (R162). -/
def effectKeepalive (_params : List Byte) (space : Nat) (s : State) : CommandOutcome :=
  let s1 := { s with keepalive := s.keepalive.clear }
  withSpace 1 space s ⟨.ok, [s1.keepalive.state.code], s1⟩

/-- READ-CHIP (R163). -/
def effectReadChip (_params : List Byte) (space : Nat) (s : State) : CommandOutcome :=
  withSpace 67 space s ⟨.ok, s.chipReadout, s⟩

/-- The control EtherTypes that may not be written (R164). -/
def etherTypeRefused (v : Nat) : Bool :=
  decide (v < 0x0600) || v == 0x0800 || v == 0x86DD || v == 0x8100 || v == 0x88A8

/-- WRITE-CHIP (R164). -/
def effectWriteChip (params : List Byte) (space : Nat) (s : State) : CommandOutcome :=
  withLength 6 params s <|
    if etherTypeRefused (fieldAt params 0 2) then refuse .badValue s
    else
      let enables := fieldAt params 3 3
      let s1 := { s with
        control := { s.control with etherType := fieldAt params 0 2 }
        keepalive := s.keepalive.write (fieldAt params 2 1)
        enables := BitVec.ofNat 19 enables }
      withSpace 6 space s ⟨okOr (decide (2 ^ 19 ≤ enables)), s1.chipSettings, s1⟩

/-- SET-TIMEBASE (R138). -/
def effectSetTimebase (params : List Byte) (space : Nat) (s : State) : CommandOutcome :=
  withLength 4 params s <|
    let p := fieldAt params 0 2
    let e := fieldAt params 2 2
    let s1 := { s with timer := { s.timer with staged := some (max 2 p, max 2 e) } }
    withSpace 4 space s ⟨okOr (decide (p < 2) || decide (e < 2)), beBytes 2 (max 2 p) ++ beBytes 2 (max 2 e), s1⟩

/-- ACK-EVENTS (R165): the named latches are cleared, and an OVERLOAD whose condition still holds latches
again at the same execution. -/
def effectAckEvents (params : List Byte) (space : Nat) (s : State) : CommandOutcome :=
  withLength 3 params s <|
    let cleared := { s with latch := s.latch &&& ~~~ (BitVec.ofNat 19 (fieldAt params 0 3)) }
    let s1 := forEachLane (fun l s => s.latchOverload l) cleared
    withSpace 3 space s ⟨.ok, beBytes 3 s1.latch.toNat, s1⟩

/-! ### Lane commands -/

/-- The two results of SET-LANE-MODE (R27). -/
def State.modeResults (s : State) (l : LaneId) : List Byte := [(s.lane l).mode.code, (s.lane l).target.code]

/-- SET-LANE-MODE (R27, R28). -/
def effectSetLaneMode (params : List Byte) (space : Nat) (s : State) : CommandOutcome :=
  withLength 2 params s <| withLane params s fun l =>
    match requestedMode (byteAt params 1) with
    | none => refuse .badValue s
    | some req =>
      withSpace 2 space s <|
        match s.requestMode l req with
        | some s1 => ⟨.ok, s1.modeResults l, s1⟩
        | none => ⟨.notNow, s.modeResults l, s⟩

/-- WRITE-LANE-PARAMS (R79, R36). -/
def effectWriteLaneParams (params : List Byte) (space : Nat) (s : State) : CommandOutcome :=
  withLength 19 params s <| withLane params s fun l =>
    withSpace 18 space s <|
      if (s.lane l).mode.enforcing then refuse .notNow s
      else
        let written := paramBlockAt params 1
        let stored := written.clamped (s.recordCount l)
        let s1 := s.modLane l fun x => { x with params := stored }
        let s2 := if (s.lane l).mode = .monitor then s1.recompute l else s1
        ⟨okOr (decide (stored ≠ written)), stored.bytes, s2⟩

/-- READ-LANE (R167). -/
def effectReadLane (params : List Byte) (space : Nat) (s : State) : CommandOutcome :=
  withLength 1 params s <| withLane params s fun l => withSpace 47 space s ⟨.ok, s.laneReadout l, s⟩

/-- The chip's counter target (Table 11-3). -/
def chipTarget : Nat := 0x80

/-- READ-COUNTERS of the chip (R168, R180). -/
def readChipCounters (clear : Bool) (space : Nat) (s : State) : CommandOutcome :=
  let values := [s.control.accepted, s.control.malformed, s.control.fifoFull]
  let s1 := if clear then { s with control := { s.control with accepted := 0, malformed := 0, fifoFull := 0 } } else s
  withSpace 13 space s ⟨.ok, beBytes 1 chipTarget ++ values.flatMap (beBytes 4), s1⟩

/-- READ-COUNTERS of a lane (R168, R19). -/
def readLaneCounters (l : LaneId) (clear : Bool) (space : Nat) (s : State) : CommandOutcome :=
  let s1 := if clear then s.modLane l fun x => { x with counters := LaneCounters.reset } else s
  withSpace 49 space s ⟨.ok, beBytes 1 l.val ++ (s.lane l).counters.values.flatMap (beBytes 4), s1⟩

/-- READ-COUNTERS (R168): the clear flag is set when its value is not 0. -/
def effectReadCounters (params : List Byte) (space : Nat) (s : State) : CommandOutcome :=
  withLength 2 params s <|
    let clear := decide (byteAt params 1 ≠ 0)
    if byteAt params 0 = chipTarget then readChipCounters clear space s
    else withLane params s fun l => readLaneCounters l clear space s

/-- FLUSH-FLOWS (R74, R36). -/
def effectFlushFlows (params : List Byte) (space : Nat) (s : State) : CommandOutcome :=
  withLength 1 params s <| withLane params s fun l =>
    withSpace 2 space s <|
      if (s.lane l).mode.enforcing then refuse .notNow s
      else ⟨.ok, beBytes 2 (s.recordCount l), (s.removeLaneRecords l).handOn l s⟩

/-- RELEASE-LANE (R116). -/
def effectReleaseLane (params : List Byte) (space : Nat) (s : State) : CommandOutcome :=
  withLength 1 params s <| withLane params s fun l =>
    let released := if (s.lane l).mode.enforcing then (s.lane l).queue.length else 0
    let s1 := s.releaseLane l
    withSpace 2 space s ⟨.ok, beBytes 1 released ++ [(s1.lane l).mode.code], s1⟩

/-- START-PROBE (R145). -/
def effectStartProbe (params : List Byte) (space : Nat) (s : State) : CommandOutcome :=
  withLength 2 params s <| withLane params s fun l =>
    match probeKindOf (byteAt params 1) with
    | none => refuse .badValue s
    | some k =>
      withSpace 1 space s <|
        if (s.lane l).mode.served then ⟨.ok, [boolByte (s.probeQueued l)], s.requestProbe l k⟩
        else refuse .notNow s

/-! ### Class commands -/

/-- WRITE-CLASS (R50, R51). -/
def effectWriteClass (params : List Byte) (space : Nat) (s : State) : CommandOutcome :=
  withLength 15 params s <|
    match classIndexOf (byteAt params 0) with
    | none => refuse .badIndex s
    | some i =>
      match classEntryAt params 1 with
      | none => refuse .badValue s
      | some w =>
        let s1 := { s with windows := s.windows.set i.val w i.isLt }
        withSpace 15 space s ⟨okOr (classEntryClamped params 1), s1.classReadout i, s1⟩

/-- READ-CLASS (R53). -/
def effectReadClass (params : List Byte) (space : Nat) (s : State) : CommandOutcome :=
  withLength 1 params s <|
    match classIndexOf (byteAt params 0) with
    | none => refuse .badIndex s
    | some i => withSpace 15 space s ⟨.ok, s.classReadout i, s⟩

/-! ### Flow commands -/

/-- The lane's records at or above a slot (R75). -/
def State.recordsFrom (s : State) (l : LaneId) (start : Nat) : List FlowRecord :=
  (s.records l).filter fun r => start ≤ r.slot

/-- READ-FLOWS (R75, R169). -/
def effectReadFlows (params : List Byte) (space : Nat) (s : State) : CommandOutcome :=
  withLength 4 params s <| withLane params s fun l =>
    let start := fieldAt params 1 2
    let count := byteAt params 3
    if Config.poolSlots ≤ start then refuse .badIndex s
    else
      let found := s.recordsFrom l start
      let r := min (min 18 count) (min ((space - 4) / 80) found.length)
      withSpace 4 space s
        ⟨okOr (decide (18 < count)),
          beBytes 1 r ++ optBytes 2 ((found.drop r).head?.map (·.slot)) ++
            (found.take r).flatMap s.recordReadout, s⟩

/-- EVICT-FLOW (R73, R170). -/
def effectEvictFlow (params : List Byte) (space : Nat) (s : State) : CommandOutcome :=
  withLength 2 params s <| withLane params s fun l =>
    match ipVersionOf (byteAt params 1) with
    | none => refuse .badValue s
    | some v =>
      withLength (6 + 2 * v.addrBytes) params s <|
        let key := keyAt v params 2
        withSpace 3 space s <|
          match s.findRecord l key with
          | some r => ⟨.ok, [1] ++ beBytes 2 r.slot, (s.removeRecord l key).handOn l s⟩
          | none => ⟨.ok, zeros 3, s⟩

/-! ### CHIP-RESET -/

/-- A lane after CHIP-RESET: its power-on values, the merge arbiter left as it stands (R18, R171). -/
def LaneState.chipReset (x : LaneState) : LaneState :=
  { LaneState.reset with output := x.output, ready := x.ready, response := x.response }

/-- A legal CHIP-RESET, as one event in every block (R171). The straps are not sampled again, and the frame
in service goes on to its response (R154). -/
def State.chipReset (s : State) : State :=
  { forEachLane (fun l s => s.modLane l LaneState.chipReset) s with
    windows := Vector.replicate 64 MatchWindow.reset
    pool := []
    timer := Timer.reset
    probe := Probe.reset
    keepalive := Keepalive.reset
    control := { Control.reset with engine := s.control.engine }
    latch := 0
    enables := 1 }

/-- CHIP-RESET (R171). -/
def effectChipReset (_params : List Byte) (_space : Nat) (s : State) : CommandOutcome :=
  if s.allAtRest then ⟨.ok, [], s.chipReset⟩ else refuse .notNow s

end Sys2Proof.Machine
end

