-- ==== Sys2Proof/Machine/ChipCommands.lean ====
section
/-! DEFINITION. The meanings of the chip commands of the control engine and CHIP-RESET (R138, R162 to R165, R171). -/

namespace Sys2Proof.Machine

/-- KEEPALIVE: the control engine executes the command (R162). -/
def execKeepalive (params : List Byte) (s : State) : Host.Outcome State Fault Refusal :=
  .next (s.runCommand 0x01 params false effectKeepalive)

/-- READ_CHIP: the control engine executes the command (R163). -/
def execReadChip (params : List Byte) (s : State) : Host.Outcome State Fault Refusal :=
  .next (s.runCommand 0x02 params false effectReadChip)

/-- WRITE_CHIP: the control engine executes the command (R164). -/
def execWriteChip (params : List Byte) (s : State) : Host.Outcome State Fault Refusal :=
  .next (s.runCommand 0x03 params false effectWriteChip)

/-- SET_TIMEBASE: the control engine executes the command (R138). -/
def execSetTimebase (params : List Byte) (s : State) : Host.Outcome State Fault Refusal :=
  .next (s.runCommand 0x04 params false effectSetTimebase)

/-- ACK_EVENTS: the control engine executes the command (R165). -/
def execAckEvents (params : List Byte) (s : State) : Host.Outcome State Fault Refusal :=
  .next (s.runCommand 0x05 params false effectAckEvents)

/-- CHIP_RESET: the control engine executes the command (R171). -/
def execChipReset (params : List Byte) (s : State) : Host.Outcome State Fault Refusal :=
  .next (s.runCommand 0x7F params true effectChipReset)

end Sys2Proof.Machine
end

