-- ==== Sys2Proof/Machine/FrameEvents.lean ====
section
/-! DEFINITION. The meanings of the frame events: arrivals, the fabric-side output, the response hand-over and
the drain release (R13, R14, R16, R17, R117). -/

namespace Sys2Proof.Machine

/-- A TCP segment of a tracking lane is reported to the flow table, whose effects are handed on, and its
payload length is made known to the probe (R13, R59, R68, R148). -/
def State.inboundSegment (s : State) (l : LaneId) (g : Segment) : State :=
  if (s.lane l).mode.tracking then
    ((s.reportSegment l g).handOn l s).probeCount l g.payloadLen
  else s

/-- The handling of an inbound frame at its arrival (R2 to R13). -/
def State.inboundFrame (s : State) (l : LaneId) (f : Frame) : State :=
  if isOversize f then s.countLane l .oversize
  else if isBad f then (s.sendStation l f).countLane l .badFcs
  else if controlEnabled s.straps.ctlsel l && isControl s.control.etherType s.straps.addr f then
    s.receiveControl l f
  else
    match segmentOf .inbound f with
    | none => (s.sendStation l f).countLane l .opaqueFrames
    | some g => (s.sendStation l f).inboundSegment l g

/-- The stages of an outbound TCP segment: the flow table, whose effects are handed on, then the gate, the
rewriter and the arbiter; in BYPASS and FAILSAFE the arbiter alone (R14). The class and request-start
decisions are those of the flow table's stage (R43, R65). -/
def State.outboundSegment (s : State) (l : LaneId) (g : Segment) (f : Frame) : State :=
  if (s.lane l).mode.tracking then
    let d := s.lookup l g
    let reported := s.reportSegment l g
    (reported.handOn l s).gateArrival l g f (reported.requestStart l g d) d
  else s.makeReady l f

/-- The handling of an outbound frame at its arrival (R2 to R11, R14). -/
def State.outboundFrame (s : State) (l : LaneId) (f : Frame) : State :=
  if isOversize f then s.countLane l .oversize
  else if isBad f then (s.makeReady l f).countLane l .badFcs
  else if isControl s.control.etherType s.straps.addr f then s.countLane l .stationCtl
  else
    match segmentOf .outbound f with
    | none => (s.makeReady l f).countLane l .opaqueFrames
    | some g => s.outboundSegment l g f

/-- INBOUND_ARRIVAL (R13). A port that does not receive takes no frame (R1, R184). -/
def execInboundArrival (l : LaneId) (f : Frame) (s : State) : Host.Outcome State Fault Refusal :=
  .next (if s.clocked then s.inboundFrame l f else s)

/-- OUTBOUND_ARRIVAL (R14). -/
def execOutboundArrival (l : LaneId) (f : Frame) (s : State) : Host.Outcome State Fault Refusal :=
  .next (if s.clocked then s.outboundFrame l f else s)

/-- OUTPUT_FRAME_END (R16). An IDLE output has no frame to finish. -/
def execOutputFrameEnd (l : LaneId) (s : State) : Host.Outcome State Fault Refusal :=
  .next (if s.clocked then s.endFrame l else s)

/-- RESPONSE_HANDOVER (R17). With no response in HAND-OVER, or the lane's slot full, nothing is taken. -/
def execResponseHandover (s : State) : Host.Outcome State Fault Refusal :=
  .next (if s.rstN then s.takeHandOver else s)

/-- DRAIN_RELEASE (R117): the drain releases due on a lane. -/
def execDrainRelease (l : LaneId) (s : State) : Host.Outcome State Fault Refusal :=
  .next (if s.rstN then s.drain l else s)

end Sys2Proof.Machine
end

