-- ==== Sys2Proof/Machine/LaneCommands.lean ====
section
/-! DEFINITION. The meanings of the lane commands of the control engine (R27, R79, R116, R145, R166 to R168, R74). -/

namespace Sys2Proof.Machine

/-- SET_LANE_MODE: the control engine executes the command (R27, R28). -/
def execSetLaneMode (params : List Byte) (s : State) : Host.Outcome State Fault Refusal :=
  .next (s.runCommand 0x10 params false effectSetLaneMode)

/-- WRITE_LANE_PARAMS: the control engine executes the command (R79). -/
def execWriteLaneParams (params : List Byte) (s : State) : Host.Outcome State Fault Refusal :=
  .next (s.runCommand 0x11 params false effectWriteLaneParams)

/-- READ_LANE: the control engine executes the command (R167). -/
def execReadLane (params : List Byte) (s : State) : Host.Outcome State Fault Refusal :=
  .next (s.runCommand 0x12 params false effectReadLane)

/-- READ_COUNTERS: the control engine executes the command (R168). -/
def execReadCounters (params : List Byte) (s : State) : Host.Outcome State Fault Refusal :=
  .next (s.runCommand 0x13 params false effectReadCounters)

/-- RELEASE_LANE: the control engine executes the command (R116). -/
def execReleaseLane (params : List Byte) (s : State) : Host.Outcome State Fault Refusal :=
  .next (s.runCommand 0x15 params false effectReleaseLane)

/-- START_PROBE: the control engine executes the command (R145). -/
def execStartProbe (params : List Byte) (s : State) : Host.Outcome State Fault Refusal :=
  .next (s.runCommand 0x16 params false effectStartProbe)

end Sys2Proof.Machine
end

