-- ==== Sys2Proof/Machine/PinEvents.lean ====
section
/-! DEFINITION. The meanings of the pin events: power, RST_N and REFCLK (R1, R183, R184). -/

namespace Sys2Proof.Machine

/-- POWER_ON: every block takes its power-on values; the levels of RST_N and REFCLK are the board's and stand
as they are (R1). -/
def execPowerOn (s : State) : Host.Outcome State Fault Refusal := .next s.powerOnBlocks

/-- RST_N_ASSERT: the frames received, staged, held or in the control engine are lost, and every block holds
its power-on values while RST_N is low (R1, R98, R154, R183). -/
def execRstNAssert (s : State) : Host.Outcome State Fault Refusal := .next { s.powerOnBlocks with rstN := false }

/-- RST_N_RELEASE: at a rising edge the straps are sampled and every block starts from its power-on values.
With RST_N released already there is no edge, and the strap levels have no effect (R183). -/
def execRstNRelease (addr : BitVec 4) (ctlsel : BitVec 2) (spd : BitVec 1) (s : State) :
    Host.Outcome State Fault Refusal :=
  .next (if s.rstN then s else { s.powerOnBlocks with rstN := true, straps := ⟨addr, ctlsel, spd⟩ })

/-- REFCLK_STOP: no tick occurs and the ports neither receive nor send until the clock returns (R184). -/
def execRefclkStop (s : State) : Host.Outcome State Fault Refusal := .next { s with refclk := false }

/-- REFCLK_RETURN: every count goes on from where it stood (R184). -/
def execRefclkReturn (s : State) : Host.Outcome State Fault Refusal := .next { s with refclk := true }

end Sys2Proof.Machine
end

