-- ==== Sys2Proof/Machine/TableCommands.lean ====
section
/-! DEFINITION. The meanings of the class and flow commands of the control engine (R50 to R53, R73 to R75). -/

namespace Sys2Proof.Machine

/-- FLUSH_FLOWS: the control engine executes the command (R74). -/
def execFlushFlows (params : List Byte) (s : State) : Host.Outcome State Fault Refusal :=
  .next (s.runCommand 0x14 params false effectFlushFlows)

/-- WRITE_CLASS: the control engine executes the command (R50, R51). -/
def execWriteClass (params : List Byte) (s : State) : Host.Outcome State Fault Refusal :=
  .next (s.runCommand 0x20 params false effectWriteClass)

/-- READ_CLASS: the control engine executes the command (R53). -/
def execReadClass (params : List Byte) (s : State) : Host.Outcome State Fault Refusal :=
  .next (s.runCommand 0x21 params false effectReadClass)

/-- READ_FLOWS: the control engine executes the command (R75, R169). -/
def execReadFlows (params : List Byte) (s : State) : Host.Outcome State Fault Refusal :=
  .next (s.runCommand 0x30 params false effectReadFlows)

/-- EVICT_FLOW: the control engine executes the command (R73, R170). -/
def execEvictFlow (params : List Byte) (s : State) : Host.Outcome State Fault Refusal :=
  .next (s.runCommand 0x31 params false effectEvictFlow)

end Sys2Proof.Machine
end

