-- ==== Sys2Proof/Machine/TimeEvents.lean ====
section
/-! DEFINITION. The meanings of the time events: the epoch tick at the timer and at each of the four blocks, and
the rows that name one thing a tick brings about (R137, R69, R111, R147 to R152, R174, R175). No tick arises
while RST_N is asserted or REFCLK stands (R136, R184). -/

namespace Sys2Proof.Machine

/-- EPOCH_TICK: the timer's own event (R137). The blocks the tick is delivered to take it as events of their
own. -/
def execEpochTick (s : State) : Host.Outcome State Fault Refusal :=
  .next (if s.clocked then s.timerTick else s)

/-- FLOW_TABLE_TICK: the flow table's tick work on every tracking lane (R69, R70). -/
def execFlowTableTick (s : State) : Host.Outcome State Fault Refusal :=
  .next (if s.clocked then forEachLane State.flowTickLane s else s)

/-- Steps 3 to 5 of R69 on the record of a slot, as an event of its lane, with its hand-on. -/
def State.limitEvent (s : State) (slot : Nat) (r : FlowRecord) : State := (s.limitSlot slot).handOn r.lane s

/-- EXPECTATION_TIMEOUT: the silent record in a slot whose idle ticks are X or more (R69, step 3 on). A record
that is not there, has been seen since the tick, or lies below X has no timeout. -/
def execExpectationTimeout (slot : SlotId) (s : State) : Host.Outcome State Fault Refusal :=
  .next (
    match s.silentRecord slot.val with
    | some r =>
      if s.clocked = true ∧ (s.lane r.lane).params.timeout ≤ r.idleTicks then s.limitEvent slot.val r else s
    | none => s)

/-- AGE_LIMIT: the silent record in a slot whose idle ticks are A or more is removed (R69, step 4). -/
def execAgeLimit (slot : SlotId) (s : State) : Host.Outcome State Fault Refusal :=
  .next (
    match s.silentRecord slot.val with
    | some r =>
      if s.clocked = true ∧ (s.lane r.lane).params.ageLimit ≤ r.idleTicks then s.limitEvent slot.val r else s
    | none => s)

/-- GATE_TICK: the gate's tick on every lane in ACTIVE or DRAINING (R111). -/
def execGateTick (s : State) : Host.Outcome State Fault Refusal :=
  .next (if s.clocked then forEachLane State.gateTickLane s else s)

/-- HOLD_LIMIT: a GATED head of an ACTIVE lane with held ticks at H or more is forced, and the re-evaluation
goes on from the next head (R111). -/
def execHoldLimit (l : LaneId) (s : State) : Host.Outcome State Fault Refusal :=
  .next (
    if s.clocked && (s.lane l).headAtLimit then State.reevaluateLoop true (s.lane l).queue.length l s else s)

/-- PROBE_TICK: the engine acts by its state, then the interval counts advance in ascending lane number
(R152). -/
def execProbeTick (s : State) : Host.Outcome State Fault Refusal :=
  .next (if s.clocked then forEachLane State.intervalTick s.engineTick else s)

/-- PROBE_WINDOW_START: the tick at a WAITING engine (R147). -/
def execProbeWindowStart (s : State) : Host.Outcome State Fault Refusal :=
  .next (
    match s.probe.engine with
    | .waiting _ => if s.clocked then s.engineTick else s
    | .idle | .measuring _ => s)

/-- PROBE_COMPLETION: the tick at a MEASURING engine that is the end tick of its window (R149, R150). -/
def execProbeCompletion (s : State) : Host.Outcome State Fault Refusal :=
  .next (if s.clocked && s.endTickNext then s.engineTick else s)

/-- PROBE_INTERVAL_REQUEST: the tick that brings an ACTIVE lane's interval count to K (R142). -/
def execProbeIntervalRequest (l : LaneId) (s : State) : Host.Outcome State Fault Refusal :=
  .next (if s.clocked && (s.lane l).intervalDue then State.intervalTick l s else s)

/-- KEEPALIVE_TICK: the tick at the keepalive monitor, with the expiry it may bring (R174). -/
def execKeepaliveTick (s : State) : Host.Outcome State Fault Refusal :=
  .next (if s.clocked then s.monitorTick else s)

/-- KEEPALIVE_EXPIRY: the tick at the keepalive monitor that brings the count to T (R174, R175). -/
def execKeepaliveExpiry (s : State) : Host.Outcome State Fault Refusal :=
  .next (if s.clocked && s.expiryNext then s.monitorTick else s)

end Sys2Proof.Machine
end

