-- ==== Sys2Proof/Machine/Dispatch.lean ====
section
/-! DEFINITION. The meaning of every step, one arm per row of spec/opcode_table.json. -/

namespace Sys2Proof.Machine

def exec (i : Instr) (s : State) : Host.Outcome State Fault Refusal :=
  match i with
  | .powerOn => Sys2Proof.Machine.execPowerOn s
  | .rstNAssert => Sys2Proof.Machine.execRstNAssert s
  | .rstNRelease addr ctlsel spd => Sys2Proof.Machine.execRstNRelease addr ctlsel spd s
  | .inboundArrival lane frame => Sys2Proof.Machine.execInboundArrival lane frame s
  | .outboundArrival lane frame => Sys2Proof.Machine.execOutboundArrival lane frame s
  | .outputFrameEnd lane => Sys2Proof.Machine.execOutputFrameEnd lane s
  | .responseHandover => Sys2Proof.Machine.execResponseHandover s
  | .keepalive params => Sys2Proof.Machine.execKeepalive params s
  | .readChip params => Sys2Proof.Machine.execReadChip params s
  | .writeChip params => Sys2Proof.Machine.execWriteChip params s
  | .setTimebase params => Sys2Proof.Machine.execSetTimebase params s
  | .ackEvents params => Sys2Proof.Machine.execAckEvents params s
  | .setLaneMode params => Sys2Proof.Machine.execSetLaneMode params s
  | .writeLaneParams params => Sys2Proof.Machine.execWriteLaneParams params s
  | .readLane params => Sys2Proof.Machine.execReadLane params s
  | .readCounters params => Sys2Proof.Machine.execReadCounters params s
  | .flushFlows params => Sys2Proof.Machine.execFlushFlows params s
  | .releaseLane params => Sys2Proof.Machine.execReleaseLane params s
  | .startProbe params => Sys2Proof.Machine.execStartProbe params s
  | .writeClass params => Sys2Proof.Machine.execWriteClass params s
  | .readClass params => Sys2Proof.Machine.execReadClass params s
  | .readFlows params => Sys2Proof.Machine.execReadFlows params s
  | .evictFlow params => Sys2Proof.Machine.execEvictFlow params s
  | .chipReset params => Sys2Proof.Machine.execChipReset params s
  | .drainRelease lane => Sys2Proof.Machine.execDrainRelease lane s
  | .epochTick => Sys2Proof.Machine.execEpochTick s
  | .flowTableTick => Sys2Proof.Machine.execFlowTableTick s
  | .expectationTimeout slot => Sys2Proof.Machine.execExpectationTimeout slot s
  | .ageLimit slot => Sys2Proof.Machine.execAgeLimit slot s
  | .gateTick => Sys2Proof.Machine.execGateTick s
  | .holdLimit lane => Sys2Proof.Machine.execHoldLimit lane s
  | .probeTick => Sys2Proof.Machine.execProbeTick s
  | .probeWindowStart => Sys2Proof.Machine.execProbeWindowStart s
  | .probeCompletion => Sys2Proof.Machine.execProbeCompletion s
  | .probeIntervalRequest lane => Sys2Proof.Machine.execProbeIntervalRequest lane s
  | .keepaliveTick => Sys2Proof.Machine.execKeepaliveTick s
  | .keepaliveExpiry => Sys2Proof.Machine.execKeepaliveExpiry s
  | .refclkStop => Sys2Proof.Machine.execRefclkStop s
  | .refclkReturn => Sys2Proof.Machine.execRefclkReturn s

end Sys2Proof.Machine
end

