-- ==== Sys2Proof/Machine/Step.lean ====
section
/-! DEFINITION. One step of the part: the front of the queue, or a cycle of the reference clock. -/

namespace Sys2Proof.Machine

/-- The step at the front of the queue runs with the queue's rest. With nothing waiting, one cycle of the
reference clock passes (R136). DESIGN CHOICE: notes/assumptions/3.md. -/
def step (s : State) : Host.Outcome State Fault Refusal :=
  match s.pending with
  | [] => .next s.clockCycle
  | i :: rest => exec i { s with pending := rest }

/-- The step a word of the table spells, put at the front of the queue; no row gives bits. -/
def State.withFetchWord (s : State) (nbits w : Nat) : State :=
  match decodeTableWord nbits w with
  | some i => { s with pending := i :: s.pending }
  | none => s

end Sys2Proof.Machine
end

