-- ==== Sys2Proof/Safety.lean ====
section
/-! DEFINITION. What a safe state is: the bounds and consistencies the manual states of the whole part, each a
predicate that every step keeps. -/

namespace Sys2Proof.Machine

/-- A lane's drain target is NONE exactly outside DRAINING (R20). -/
abbrev State.TargetsLegal (s : State) : Prop := ∀ l : LaneId, (s.lane l).target = .none ↔ (s.lane l).mode ≠ .draining

/-- A deferral queue holds at most 48 entries (R99), none outside ACTIVE and DRAINING (R104), and a DRAINING lane
holds at least one (R33). -/
abbrev State.QueuesLegal (s : State) : Prop :=
  ∀ l : LaneId, (s.lane l).queue.length ≤ Config.queueEntries ∧
    ((s.lane l).mode.enforcing = false → (s.lane l).queue = []) ∧
    ((s.lane l).mode = .draining → (s.lane l).queue ≠ [])

/-- The held frames together occupy at most 1024 cells (R99). -/
abbrev State.StoreWithin (s : State) : Prop := s.usedCells ≤ Config.storeCells

/-- The pool is in canonical form: at most one record a slot (R54). -/
abbrev State.PoolCanonical (s : State) : Prop := poolWf s.pool = true

/-- Within one lane no two records have equal keys (R54). -/
abbrev State.KeysUnique (s : State) : Prop := (s.pool.map fun r => (r.lane, r.key)).Nodup

/-- No lane holds more records than its quota (R57). -/
abbrev State.QuotasKept (s : State) : Prop := ∀ l : LaneId, s.recordCount l ≤ (s.lane l).params.quota

/-- No record's expected exceeds 16,777,215 (R55). -/
abbrev State.ExpectedWithin (s : State) : Prop := ∀ r ∈ s.pool, r.expected ≤ Config.max24

/-- For every lane the grants of its records sum to at most its budget (R86). -/
abbrev State.GrantsWithin (s : State) : Prop := ∀ l : LaneId, ((s.records l).map (·.grant)).sum ≤ (s.lane l).budget

/-- OVERLOAD[lane] is latched whenever its condition holds (R178). -/
abbrev State.OverloadsLatched (s : State) : Prop := ∀ l : LaneId, s.overloaded l = true → s.latched (.overload l) = true

/-- The monitor is OFF exactly when T is 0, its count never exceeds T, and while it is RUNNING the count lies below
T (R173, R174). -/
abbrev State.KeepaliveLegal (s : State) : Prop :=
  (s.keepalive.state = .off ↔ s.keepalive.period = 0) ∧ s.keepalive.count ≤ s.keepalive.period ∧
    (s.keepalive.state = .running → s.keepalive.count < s.keepalive.period)

/-- The probe queue holds no lane twice, only lanes the probe serves; an engine that is not IDLE serves such a lane,
and an IDLE engine leaves no request waiting (R141, R144, R146). -/
abbrev State.ProbeLegal (s : State) : Prop :=
  (s.probe.queue.map (·.lane)).Nodup ∧ (∀ r ∈ s.probe.queue, (s.lane r.lane).mode.served = true) ∧
    (∀ r ∈ s.probe.engine.serving.toList, (s.lane r.lane).mode.served = true) ∧
    (s.probe.engine = .idle → s.probe.queue = [])

/-- The lane whose frame the control engine has in hand, if any. -/
def ControlState.laneInHand : ControlState → Option LaneId
  | .idle => none
  | .executing f => some f.lane
  | .handOver l _ => some l

/-- The FIFO holds at most 4 frames (R156) and none while the engine is IDLE (R157); only control-enabled lanes have
a frame in the control engine or a response in their slot (R5, R17). -/
abbrev State.ControlLegal (s : State) : Prop :=
  s.control.fifo.length ≤ Config.fifoFrames ∧ (s.control.engine = .idle → s.control.fifo = []) ∧
    (∀ p ∈ s.control.fifo, controlEnabled s.straps.ctlsel p.1 = true) ∧
    (∀ l ∈ s.control.engine.laneInHand.toList, controlEnabled s.straps.ctlsel l = true) ∧
    (∀ l : LaneId, controlEnabled s.straps.ctlsel l = false → (s.lane l).response = none)

/-- With CTLSEL = 11 every lane is in BYPASS and no frame is in the control engine (R20). -/
abbrev State.Sealed (s : State) : Prop :=
  s.straps.ctlsel = 3 → (∀ l : LaneId, (s.lane l).mode = .bypass) ∧ s.control.fifo = [] ∧ s.control.engine = .idle

/-- An IDLE output has nothing ready and no response waiting (R16, R17), and no drain release is left due (R117). -/
abbrev State.ArbitersLegal (s : State) : Prop :=
  ∀ l : LaneId, ((s.lane l).output = none → (s.lane l).ready = [] ∧ (s.lane l).response = none) ∧
    (s.lane l).drainDue = false

/-- Every lane parameter lies in its range of Table 5-2. -/
def LaneParams.inRange (p : LaneParams) : Bool :=
  decide (p.bufferShare ≤ Config.max24) && decide (1 ≤ p.rNominal ∧ p.rNominal ≤ Config.max24) &&
    decide (p.targetDelay ≤ 4095) && decide (64 ≤ p.floorGrant ∧ p.floorGrant ≤ 65535) &&
    decide (8 ≤ p.overcommit ∧ p.overcommit ≤ 32) && decide (1 ≤ p.holdLimit ∧ p.holdLimit ≤ 255) &&
    decide (1 ≤ p.ageLimit ∧ p.ageLimit ≤ 255) && decide (1 ≤ p.timeout ∧ p.timeout ≤ 255) &&
    decide (1 ≤ p.quota ∧ p.quota ≤ 1024) && decide (1 ≤ p.defaultWeight ∧ p.defaultWeight ≤ 15) &&
    decide (p.probeInterval ≤ 255)

/-- Every lane's parameters lie in their ranges (Table 5-2). -/
abbrev State.ParamsInRange (s : State) : Prop := ∀ l : LaneId, (s.lane l).params.inRange = true

/-- A window scale in the table never exceeds 14, in a record's scale or in a handshake's option (R10, R60). -/
def FlowRecord.scaleLegal (r : FlowRecord) : Bool :=
  (match r.scale with
   | some sc => decide (sc ≤ 14)
   | none => true) &&
  (match r.state with
   | .learning (.station (some sc)) => decide (sc ≤ 14)
   | .learning (.station none) | .learning (.remote _) | .opened | .closing => true)

/-- Every scale in the flow table is at most 14 (R10, R60). -/
abbrev State.ScalesLegal (s : State) : Prop := ∀ r ∈ s.pool, r.scaleLegal = true

/-- The addresses of a key have the length of its IP version: 4 bytes or 16 (R7, R8, R12). -/
def FlowKey.legal (k : FlowKey) : Bool :=
  match k.version with
  | .v4 => decide (k.stationAddr.length = 4 ∧ k.remoteAddr.length = 4)
  | .v6 => decide (k.stationAddr.length = 16 ∧ k.remoteAddr.length = 16)

/-- Every key of a record and of a held frame is that of an IPv4 or an IPv6 connection (R12). -/
abbrev State.KeysLegal (s : State) : Prop :=
  (∀ r ∈ s.pool, r.key.legal = true) ∧ ∀ l : LaneId, ∀ e ∈ (s.lane l).queue, e.key.legal = true

/-- On a lane in ACTIVE no FOLLOWER stands at the head of the queue once an event has been taken (R100). -/
abbrev State.HeadsGated (s : State) : Prop :=
  ∀ l : LaneId, (s.lane l).mode = .active → ∀ e ∈ (s.lane l).queue.head?.toList, e.kind ≠ .follower

/-- What a recompute of a lane would write, as R80 to R86 give it: R_eff, B, n_max, the regime, and for each record
its grant. -/
abbrev LaneState.RecomputedFor (x : LaneState) (records : List FlowRecord) (n w : Nat) : Prop :=
  x.rEff = (x.rMeas.map (min x.params.rNominal)).getD x.params.rNominal ∧
    x.budget = min 16777215 (x.params.bufferShare + x.rEff * x.params.targetDelay / 16) ∧
    x.nMax = min x.params.quota (x.budget / x.params.floorGrant) ∧
    x.regime = (if n * x.params.floorGrant ≤ x.budget then .floor else .fallback) ∧
    ∀ r ∈ records, r.grant =
      if r.active = false then 0
      else if n * x.params.floorGrant ≤ x.budget then
        x.params.floorGrant + (x.budget - n * x.params.floorGrant) * r.weight / w
      else x.budget * r.weight / w

/-- On every tracking lane B, R_eff, n_max, the regime and every grant are those that a recompute of the state as it
stands would write: the recomputes of R88 miss no event that changes what they read (R97, R167). -/
abbrev State.Recomputed (s : State) : Prop :=
  ∀ l : LaneId, (s.lane l).mode.tracking = true →
    (s.lane l).RecomputedFor (s.records l) (s.n l) (((s.activeRecords l).map (·.weight)).sum)

/-- The decision kept with a held request has a weight of 1 to 15 (Table 3-1, Table 5-2). -/
def EntryKind.weightLegal : EntryKind → Bool
  | .gated d => decide (1 ≤ d.weight ∧ d.weight ≤ 15)
  | .follower => true

/-- Every weight of a record, of a match window and of a held request's decision lies in 1 to 15 (Table 3-1,
Table 4-1). -/
abbrev State.WeightsLegal (s : State) : Prop :=
  (∀ r ∈ s.pool, 1 ≤ r.weight ∧ r.weight ≤ 15) ∧
    (∀ i : Fin 64, 1 ≤ (s.windows.get i).weight ∧ (s.windows.get i).weight ≤ 15) ∧
    ∀ l : LaneId, ∀ e ∈ (s.lane l).queue, e.kind.weightLegal = true

/-! ### What an event leaves alone -/

/-- What an event of one lane in the flow table, the grant engine, the gate, the rewriter and the arbiter may
change: that lane, the records of that lane, and the event latch, which it only sets (R166). -/
structure State.LaneEvent (l : LaneId) (s t : State) : Prop where
  lanes : ∀ l' : LaneId, l' ≠ l → t.lane l' = s.lane l'
  records : ∀ l' : LaneId, l' ≠ l → t.records l' = s.records l'
  latch : ∀ e : Event, s.latched e = true → t.latched e = true
  rest : { t with lanes := s.lanes, pool := s.pool, latch := s.latch } = s

/-- The turn of one lane in an event that takes the lanes one after another, whatever their order: at its beginning, in
`u`, the lane stands as in `s`, where the event began, and every other lane as the event found it or as it leaves it; it
ends in `v`, and the event leaves the lane in `t` as its turn did. -/
structure State.LaneTurn (l : LaneId) (s u v t : State) : Prop where
  before : u.lane l = s.lane l ∧ u.records l = s.records l
  others : ∀ l' : LaneId, l' ≠ l → (u.lane l' = s.lane l' ∧ u.records l' = s.records l') ∨
    (u.lane l' = t.lane l' ∧ u.records l' = t.records l')
  rest : { u with lanes := s.lanes, pool := s.pool, latch := s.latch } = s
  turn : u.LaneEvent l v
  after : t.lane l = v.lane l ∧ t.records l = v.records l

/-- A state with the control engine's frame in service and the model's own record of the last item forgotten: what
a command's execution changes apart from writing its item. -/
def State.apartEngine (s : State) : State :=
  { s with control := { s.control with engine := .idle }, lastItem := none }

/-- A record with its grant forgotten: what the flow table itself holds of it. -/
def FlowRecord.apartGrant (r : FlowRecord) : FlowRecord := { r with grant := 0 }

/-- The frames that have left a lane by the fabric side or stand at its arbiter, in the order in which they leave. -/
def State.outgoing (s : State) (l : LaneId) : List Frame :=
  s.fabricSent.get l ++ (s.lane l).output.toList ++ (s.lane l).response.toList ++ (s.lane l).ready

/-- The frames of a lane on their way out by the fabric side, those already sent and those held included. -/
def State.framesOf (s : State) (l : LaneId) : List Frame := s.outgoing l ++ (s.lane l).queue.map (·.frame)

/-! ### Releases (R106, R107) -/

/-- How a frame leaves the rewriter: as it was, or with a lower window, the checksum and the FCS that go with it, and
every other byte as it was (R122, R130, R132). -/
def leavesAs (f f' : Frame) : Prop :=
  f' = f ∨ ∃ g : Segment, segmentOf .outbound f = some g ∧ f'.length = f.length ∧
    windowField f' g < windowField f g ∧ f'.drop (f.length - 4) = fcsBytes (contentsOf f') ∧
    ∀ i : Nat, i < f.length - 4 → (i < g.tcpAt + 14 ∨ g.tcpAt + 18 ≤ i) → f'[i]? = f[i]?

/-- The costs that the releases of some entries charge to one connection, in their order: a GATED entry is charged,
a FOLLOWER is not (R106, R107). -/
def chargesTo (key : FlowKey) (entries : List QueueEntry) : List Nat :=
  entries.filterMap fun e =>
    match e.kind with
    | .gated d => if e.key = key then some d.cost else none
    | .follower => none

/-- The decisions kept with the GATED entries of one connection, in their order, from the first on that may make a
record: an EXEMPT one makes none and counts nothing (R45, R46, R58). -/
def makersFor (key : FlowKey) (entries : List QueueEntry) : List ClassDecision :=
  (entries.filterMap fun e =>
    match e.kind with
    | .gated d => if e.key = key then some d else none
    | .follower => none).dropWhile fun d => decide (d.role = .exempt)

/-- A GATED entry that may make a record and whose connection has none in a state (R107). -/
def State.leavesUncharged (t : State) (l : LaneId) (e : QueueEntry) : Bool :=
  match e.kind with
  | .gated d => decide (d.role ≠ .exempt) && (t.findRecord l e.key).isNone
  | .follower => false

/-- An event that releases some entries of a lane in their order, each accounted and rewritten: their frames join
those of the arbiter in that order, and every record of the lane is charged for its own GATED entries and changes in
nothing else but seen, its grant and its last edge, which a record of unknown scale keeps. No record leaves. A
connection without a record that has GATED entries gets one from the decision kept with the first, OPEN, in the lowest
free slot and charged for all of them; or, the lane being without room, it gets none, and UNTRACKED is counted once for
each of its GATED entries. Room does not come back within the event, so once one connection is refused none that comes
after it gets a record. A connection with nothing charged gets no record (R16, R45, R57, R58, R106, R107). -/
structure State.Released (s : State) (l : LaneId) (entries : List QueueEntry) (t : State) : Prop where
  frames : ∃ fs : List Frame, List.Forall₂ leavesAs (entries.map (·.frame)) fs ∧ t.outgoing l = s.outgoing l ++ fs
  charged : ∀ (key : FlowKey) (r : FlowRecord), s.findRecord l key = some r →
    ∃ r' : FlowRecord, t.findRecord l key = some r' ∧
      { r' with seen := r.seen, grant := r.grant, lastEdge := r.lastEdge } = { r with
        expected := (chargesTo key entries).foldl (fun x cost => min 16777215 (x + cost)) r.expected
        requestOpen := r.requestOpen || decide (chargesTo key entries ≠ []) } ∧
      (r.seen = true ∨ chargesTo key entries ≠ [] → r'.seen = true) ∧ (r.scale = none → r'.lastEdge = r.lastEdge)
  uncharged : ∀ key : FlowKey, s.findRecord l key = none → makersFor key entries = [] → t.findRecord l key = none
  made : ∀ (key : FlowKey) (d : ClassDecision) (later : List ClassDecision), s.findRecord l key = none →
    makersFor key entries = d :: later →
    (t.findRecord l key = none ∧ t.hasRoom l = false) ∨
      (s.hasRoom l = true ∧ ∃ r' : FlowRecord, t.findRecord l key = some r' ∧
        (∀ n : Nat, n < r'.slot → ∃ x ∈ t.pool, x.slot = n) ∧
        { r' with grant := 0 } = {
          slot := r'.slot
          lane := l
          key := key
          state := .opened
          scale := none
          cls := d.cls
          weight := d.weight
          grant := 0
          lastEdge := none
          expected := ((d :: later).map (·.cost)).foldl (fun x cost => min 16777215 (x + cost)) 0
          requestOpen := true
          epochBytes := 0
          dataLastEpoch := false
          idleTicks := 0
          seen := true })
  order : ∀ (before : List QueueEntry) (e : QueueEntry) (after : List QueueEntry), entries = before ++ e :: after →
    t.leavesUncharged l e = true →
    ∀ key : FlowKey, s.findRecord l key = none → makersFor key before = [] → t.findRecord l key = none
  untracked : (t.lane l).counters.untracked =
    bump^[(entries.filter (t.leavesUncharged l)).length] (s.lane l).counters.untracked
  stands : ∀ x ∈ s.pool, ∃ x' ∈ t.pool, x'.slot = x.slot ∧ x'.lane = x.lane ∧ x'.key = x.key
  roomless : s.hasRoom l = false → t.hasRoom l = false

/-! ### Re-evaluation (R68, R91, R109, R111) -/

/-- The release of the head `e` of an ACTIVE lane, spelled once: it leaves the queue, a GATED one is charged, and its
frame, rewritten from the state after its charge, joins the arbiter (R106, R107, R108). -/
def State.releasing (s : State) (l : LaneId) (e : QueueEntry) (rest : List QueueEntry) : State :=
  let s0 := s.modLane l fun x => { x with queue := rest }
  let s1 :=
    match e.kind with
    | .gated d => s0.charge l e.key d
    | .follower => s0
  (s1.rewrite l e.frame).2.makeReady l (s1.rewrite l e.frame).1

/-- A re-evaluation of the queue of an ACTIVE lane, step by step: from one state it releases some entries and ends in
another. Each entry was a FOLLOWER, or GATED and passed admission on the state before its release, or, at the gate's
tick (`force`), GATED with held ticks of H or more and counted FORCED. It ends at an empty queue, or at a head that is
GATED, fails admission on the state as it then stands and, at the gate's tick, is below H: that head stays, with every
entry behind it, and nothing else happens (R109, R111). -/
inductive State.Reevaluated (force : Bool) (l : LaneId) : State → List QueueEntry → State → Prop where
  | empty {s : State} (queue : (s.lane l).queue = []) : State.Reevaluated force l s [] s
  | blocked {s : State} {e : QueueEntry} {rest : List QueueEntry} {d : ClassDecision}
      (queue : (s.lane l).queue = e :: rest) (kind : e.kind = .gated d)
      (fails : s.passesAdmission l e.key d.cost = false)
      (below : force = true → e.heldTicks < (s.lane l).params.holdLimit) : State.Reevaluated force l s [] s
  | follower {s t : State} {e : QueueEntry} {rest released : List QueueEntry}
      (queue : (s.lane l).queue = e :: rest) (kind : e.kind = .follower)
      (goesOn : State.Reevaluated force l (s.releasing l e rest) released t) :
      State.Reevaluated force l s (e :: released) t
  | admitted {s t : State} {e : QueueEntry} {rest released : List QueueEntry} {d : ClassDecision}
      (queue : (s.lane l).queue = e :: rest) (kind : e.kind = .gated d)
      (below : force = true → e.heldTicks < (s.lane l).params.holdLimit)
      (passes : s.passesAdmission l e.key d.cost = true)
      (goesOn : State.Reevaluated force l (s.releasing l e rest) released t) :
      State.Reevaluated force l s (e :: released) t
  | forced {s t : State} {e : QueueEntry} {rest released : List QueueEntry} {d : ClassDecision}
      (queue : (s.lane l).queue = e :: rest) (kind : e.kind = .gated d)
      (tick : force = true) (limit : (s.lane l).params.holdLimit ≤ e.heldTicks)
      (goesOn : State.Reevaluated force l ((s.releasing l e rest).modLane l fun x =>
        { x with counters := { x.counters with forced := bump x.counters.forced } }) released t) :
      State.Reevaluated force l s (e :: released) t

/-- What a cause handed to the gate does on a lane: in ACTIVE a re-evaluation, whose released entries leave from the head
of the queue in their order, each accounted and rewritten; without the cause, and in every other mode, nothing (R109). -/
def State.Reconsidered (s : State) (l : LaneId) (cause : Prop) (released : List QueueEntry) (t : State) : Prop :=
  ((s.lane l).mode = .active ∧ cause →
    s.Reevaluated false l released t ∧ (s.lane l).queue = released ++ (t.lane l).queue ∧ s.Released l released t) ∧
  (¬ ((s.lane l).mode = .active ∧ cause) → released = [] ∧ t = s)

/-- The hand-on of a flow table event on a tracking lane, which began in `s` and whose own work left `u`: a change of
the active set recomputes the lane, and a fall of C or of n, or a rise of B, lets the gate re-evaluate, once (R68, R88,
R91, R109). That the recompute comes first is the model's: notes/assumptions/20.md. -/
def State.HandedOn (s : State) (l : LaneId) (u : State) (released : List QueueEntry) (t : State) : Prop :=
  ∃ w : State, w = (if u.activeSet l = s.activeSet l then u else u.recompute l) ∧
    w.Reconsidered l (w.c l < s.c l ∨ w.n l < s.n l ∨ (s.lane l).budget < (w.lane l).budget) released t

/-- The values every block takes at power-on, as the manual's chapters state them one by one (R18, R19, R20, R37,
R76, R77, R98, Table 8-1, Table 8-2, R154, R173, R177). -/
structure State.AtPowerOn (s : State) : Prop where
  modes : ∀ l : LaneId, (s.lane l).mode = .bypass ∧ (s.lane l).target = .none
  parameters : ∀ l : LaneId, (s.lane l).params = ⟨65536, 156250, 5, 2920, 8, 8, 64, 16, 128, 4, 0⟩
  budgets : ∀ l : LaneId, (s.lane l).rMeas = none ∧ (s.lane l).rEff = 156250 ∧ (s.lane l).budget = 114364 ∧
    (s.lane l).nMax = 39 ∧ (s.lane l).regime = .floor
  gate : ∀ l : LaneId, (s.lane l).queue = []
  arbiters : ∀ l : LaneId, (s.lane l).output = none ∧ (s.lane l).ready = [] ∧ (s.lane l).response = none
  counters : ∀ l : LaneId, (s.lane l).counters = ⟨0, 0, 0, 0, 0, 0, 0, 0, 0, 0, 0, 0⟩ ∧ (s.lane l).intervalCount = 0
  windows : ∀ i : Fin 64, s.windows.get i = ⟨false, .first, .remotePort, 0, 0, 0, 0, .plain, 0, 1⟩
  pool : s.pool = []
  timer : s.timer = ⟨100, 50, none, 0, 0, 0⟩
  probe : s.probe = ⟨[], .idle, 0, 0, true⟩
  keepalive : s.keepalive = ⟨0, 0, .off⟩
  control : s.control = ⟨[], .idle, 0x88B5, 0, 0, 0⟩
  events : s.latch = 0 ∧ ∀ e : Event, s.enabled e = decide (e = .wdog)

/-! ### The conditions of the lane path, spelled once -/

/-- A frame that passes the oversize and bad-frame tests (R2, R3). -/
abbrev goodFrame (f : Frame) : Prop := isOversize f = false ∧ isBad f = false

/-- A good outbound frame that is no control frame and is the TCP segment `g` (R6 to R12). -/
abbrev State.outboundTcp (s : State) (f : Frame) (g : Segment) : Prop :=
  goodFrame f ∧ isControl s.control.etherType s.straps.addr f = false ∧ segmentOf .outbound f = some g

/-- A good inbound frame of a lane that is not consumed as a control frame and is the TCP segment `g` (R5, R7 to
R12). -/
abbrev State.inboundTcp (s : State) (l : LaneId) (f : Frame) (g : Segment) : Prop :=
  goodFrame f ∧ (controlEnabled s.straps.ctlsel l && isControl s.control.etherType s.straps.addr f) = false ∧
    segmentOf .inbound f = some g

/-- The arrival of a frame on a lane from one side. -/
def arrival : Direction → LaneId → Frame → Instr
  | .inbound, l, f => .inboundArrival l f
  | .outbound, l, f => .outboundArrival l f

/-- A segment that arrives from one side and that the gate does not hold behind an entry of its connection (R101,
R103). -/
def State.arrives (s : State) : Direction → LaneId → Frame → Segment → Prop
  | .inbound, l, f, g => s.inboundTcp l f g
  | .outbound, l, f, g => s.outboundTcp f g ∧ s.holds l g.key = false

/-- A tracking lane on which an event cannot release anything by re-evaluation: in ACTIVE its queue is empty (R109). -/
abbrev State.quiet (s : State) (l : LaneId) : Prop :=
  (s.lane l).mode.tracking = true ∧ ((s.lane l).mode = .active → (s.lane l).queue = [])

/-- The least parameter length of each command of the command set (Table 9-3, Table 11-2). For EVICT-FLOW it is that
of the lane and the version byte (R170). -/
def leastParams (code : Byte) : Nat :=
  match code.toNat with
  | 0x03 => 6
  | 0x04 => 4
  | 0x05 => 3
  | 0x10 => 2
  | 0x11 => 19
  | 0x12 => 1
  | 0x13 => 2
  | 0x14 => 1
  | 0x15 => 1
  | 0x16 => 2
  | 0x20 => 15
  | 0x21 => 1
  | 0x30 => 4
  | 0x31 => 2
  | _ => 0

/-- The full result length of each command with these parameters (R160; Table 11-2): for READ-FLOWS its fixed part. -/
def fullResults (code : Byte) (params : List Byte) : Nat :=
  match code.toNat with
  | 0x01 => 1
  | 0x02 => 67
  | 0x03 => 6
  | 0x04 => 4
  | 0x05 => 3
  | 0x10 => 2
  | 0x11 => 18
  | 0x12 => 47
  | 0x13 => if byteAt params 0 = 0x80 then 13 else 49
  | 0x14 => 2
  | 0x15 => 2
  | 0x16 => 1
  | 0x20 => 15
  | 0x21 => 15
  | 0x30 => 4
  | 0x31 => 3
  | _ => 0

/-- The commands whose first parameter byte is a lane (Table 9-3); READ-COUNTERS also takes the chip's code. -/
def namesLane (code : Byte) : Bool :=
  match code.toNat with
  | 0x10 | 0x11 | 0x12 | 0x13 | 0x14 | 0x15 | 0x16 | 0x30 | 0x31 => true
  | _ => false

/-- Check 3 of R159 on class indexes and start slots: whether a command names one that does not exist. -/
def badIndex (code : Byte) (params : List Byte) : Bool :=
  match code.toNat with
  | 0x20 | 0x21 => decide (63 < byteAt params 0)
  | 0x30 => decide (1023 < fieldAt params 1 2)
  | _ => false

/-- Check 4 of R159: whether a value lies outside the codes its command defines (Table 11-3, R164). -/
def badValue (code : Byte) (params : List Byte) : Bool :=
  match code.toNat with
  | 0x03 => decide (fieldAt params 0 2 < 0x0600 ∨ fieldAt params 0 2 ∈ [0x0800, 0x86DD, 0x8100, 0x88A8])
  | 0x10 => decide (2 < byteAt params 1)
  | 0x16 => decide (1 < byteAt params 1)
  | 0x20 =>
    decide (1 < byteAt params 1 ∨ 3 < byteAt params 2 ∨ 3 < byteAt params 3 ∨ 2 < byteAt params 10)
  | 0x31 => decide (byteAt params 1 ∉ [4, 6])
  | _ => false

/-- The status of the first of checks 2 to 4 of R159 that fails, EVICT-FLOW's second length check after them (R170);
none when all pass. -/
def refusedBy (code : Byte) (params : List Byte) : Option Byte :=
  if params.length < leastParams code then some 0x07
  else if namesLane code = true ∧ 8 ≤ byteAt params 0 ∧ ¬ (code = 0x13 ∧ byteAt params 0 = 0x80) then some 0x03
  else if badIndex code params = true then some 0x04
  else if badValue code params = true then some 0x05
  else if code = 0x31 ∧ params.length < (if byteAt params 1 = 4 then 14 else 38) then some 0x07
  else none

/-! ### The control engine's opening, spelled once -/

/-- The engine once it has taken a control frame of a lane: the response opened with no item, the first command
behind the 6-byte header, as many commands as byte 4 counts, and a result space of 1500 bytes less the header and 4
bytes for each item's header; the walk over commands that are not executed then leaves the first one to execute, or a
complete response (R155, R157, R160). -/
def takesUp (etherType : Nat) (addr : BitVec 4) (l : LaneId) (f : Frame) : ControlState :=
  let payload := controlPayload f
  let count := byteAt payload 4
  let w := InService.walk count ⟨l, f, payload, 6, count, [], 1500 - 6 - 4 * count, false⟩
  if w.remaining = 0 then .handOver l (w.response etherType addr) else .executing w

/-! ### The options of a TCP header, spelled once -/

/-- One whole option of a TCP option list that does not end it: kind 1 alone, or a kind, a length byte that gives the
option's own length, and the bytes so counted; a kind 3 has length 3 (R10). -/
abbrev wholeOption (o : List Byte) : Prop :=
  o = [1] ∨ (2 ≤ o.length ∧ byteAt o 0 ≠ 0 ∧ byteAt o 0 ≠ 1 ∧ byteAt o 1 = o.length ∧ (byteAt o 0 = 3 → o.length = 3))

/-- The start of a TCP option list that is malformed there: an option whose length byte is missing, is below 2 or runs
past the end, or a kind 3 whose length is not 3 (R10). -/
abbrev brokenOption (o : List Byte) : Prop :=
  1 ≤ o.length ∧ byteAt o 0 ≠ 0 ∧ byteAt o 0 ≠ 1 ∧
    (o.length = 1 ∨ byteAt o 1 < 2 ∨ o.length < byteAt o 1 ∨ (byteAt o 0 = 3 ∧ byteAt o 1 ≠ 3))

/-! ### The layouts of chapter Formats, Signals and Straps, field by field -/

/-- Bytes of this number, in which each field (offset, size, value) stands at its offset, most significant byte first;
a field holds as many low bytes of its value as its size gives. -/
abbrev laidOut (out : List Byte) (size : Nat) (fields : List (Nat × Nat × Nat)) : Prop :=
  out.length = size ∧ ∀ x ∈ fields, fieldAt out x.1 x.2.1 = x.2.2 % 256 ^ x.2.1

/-- 1 for yes, 0 for no (Table 11-3). -/
def yesOrNo (b : Bool) : Nat := if b then 1 else 0

/-- The parameter block, 18 bytes. -/
def paramFields (p : LaneParams) : List (Nat × Nat × Nat) :=
  [(0, 3, p.bufferShare), (3, 3, p.rNominal), (6, 2, p.targetDelay), (8, 2, p.floorGrant), (10, 1, p.overcommit),
    (11, 1, p.holdLimit), (12, 1, p.ageLimit), (13, 1, p.timeout), (14, 2, p.quota), (16, 1, p.defaultWeight),
    (17, 1, p.probeInterval)]

/-- The lane readout, 47 bytes, the parameter block first. -/
def State.laneFields (s : State) (l : LaneId) : List (Nat × Nat × Nat) :=
  paramFields (s.lane l).params ++
    [(18, 1, (s.lane l).mode.code.toNat), (19, 1, (s.lane l).target.code.toNat), (20, 3, (s.lane l).budget),
      (23, 3, (s.lane l).rEff), (26, 1, yesOrNo (s.lane l).rMeas.isSome), (27, 3, (s.lane l).rMeas.getD 0),
      (30, 2, (s.lane l).nMax), (32, 1, (s.lane l).regime.code.toNat), (33, 2, s.n l), (35, 2, s.w l), (37, 5, s.c l),
      (42, 1, (s.lane l).queue.length), (43, 2, s.laneCells l), (45, 2, s.recordCount l)]

/-- The probe engine in the chip readout: state, lane, kind, window ticks and byte count, all but the state 0 when
IDLE. -/
def Probe.engineFields (p : Probe) : List (Nat × Nat × Nat) :=
  match p.engine with
  | .idle => [(30, 1, 0), (31, 1, 0), (32, 1, 0), (33, 1, 0), (34, 5, 0)]
  | .waiting r => [(30, 1, 1), (31, 1, r.lane.val), (32, 1, r.kind.code.toNat), (33, 1, p.windowTicks), (34, 5, p.byteCount)]
  | .measuring r =>
    [(30, 1, 2), (31, 1, r.lane.val), (32, 1, r.kind.code.toNat), (33, 1, p.windowTicks), (34, 5, p.byteCount)]

/-- The chip readout, 67 bytes. -/
def State.chipFields (s : State) : List (Nat × Nat × Nat) :=
  [(0, 2, s.timer.epochNumber), (2, 2, s.timer.prescale), (4, 2, s.timer.epochDivisor),
    (6, 1, yesOrNo s.timer.staged.isSome), (7, 2, (s.timer.staged.getD (0, 0)).1), (9, 2, (s.timer.staged.getD (0, 0)).2),
    (11, 1, s.keepalive.state.code.toNat), (12, 1, s.keepalive.count), (13, 1, s.keepalive.period)] ++
    allLanes.map (fun l => (14 + l.val, 1, (s.lane l).mode.code.toNat)) ++
    allLanes.map (fun l => (22 + l.val, 1, (s.lane l).target.code.toNat)) ++ s.probe.engineFields ++
    [(39, 1, s.probe.queue.length)] ++
    (List.range 8).flatMap (fun i =>
      [(40 + 2 * i, 1, (s.probe.queue[i]?.map (·.lane.val)).getD 0),
        (41 + 2 * i, 1, (s.probe.queue[i]?.map (·.kind.code.toNat)).getD 0)]) ++
    [(56, 3, s.latch.toNat), (59, 3, s.enables.toNat), (62, 2, s.control.etherType), (64, 1, s.straps.addr.toNat),
      (65, 1, s.straps.ctlsel.toNat), (66, 1, s.straps.spd.toNat)]

/-- An address in its field of 16 bytes, the bytes it leaves being zero fill. -/
def addressValue (a : List Byte) : Nat := beNat a * 256 ^ (16 - a.length)

/-- The flow record readout, 80 bytes. -/
def State.recordFields (s : State) (r : FlowRecord) : List (Nat × Nat × Nat) :=
  [(0, 2, r.slot), (2, 1, r.lane.val), (3, 1, if r.key.version = .v4 then 4 else 6),
    (4, 16, addressValue r.key.stationAddr), (20, 2, r.key.stationPort), (22, 16, addressValue r.key.remoteAddr),
    (38, 2, r.key.remotePort), (40, 1, r.state.code.toNat), (41, 1, r.scale.getD 0xFF)] ++
    (match r.state with
     | .learning (.station option) => [(42, 1, 1), (43, 1, option.getD 0xFF)]
     | .learning (.remote present) => [(42, 1, 2), (43, 1, if present then 0x40 else 0xFF)]
     | .opened | .closing => [(42, 1, 0), (43, 1, 0xFF)]) ++
    [(44, 1, r.cls.getD 0xFF), (45, 1, r.weight), (46, 3, r.grant), (49, 1, yesOrNo r.lastEdge.isSome),
      (50, 4, (r.lastEdge.getD 0).toNat), (54, 3, r.expected), (57, 1, yesOrNo r.requestOpen), (58, 4, r.epochBytes),
      (62, 1, yesOrNo r.dataLastEpoch), (63, 1, r.idleTicks), (64, 1, yesOrNo r.seen), (65, 1, yesOrNo r.active),
      (66, 1, s.entriesOf r.lane r.key), (67, 13, 0)]

/-- The result of WRITE-CLASS and READ-CLASS, 15 bytes: the index, then the entry. -/
def classFields (i : Nat) (w : MatchWindow) : List (Nat × Nat × Nat) :=
  [(0, 1, i), (1, 1, yesOrNo w.enable), (2, 1, w.tier.code.toNat), (3, 1, w.field.code.toNat), (4, 2, w.base.toNat),
    (6, 1, w.k), (7, 2, w.dc.toNat), (9, 1, w.lanes.toNat), (10, 1, w.role.code.toNat), (11, 3, w.cost),
    (14, 1, w.weight)]

/-! ### The match test, spelled once -/

/-- The value of a segment that a field of the match table names, the last two bytes of the remote address the most
significant first (Table 3-2, R39). -/
def Segment.tested (g : Segment) : MatchField → Nat
  | .remotePort => g.key.remotePort
  | .stationPort => g.key.stationPort
  | .dscp => g.dscp
  | .remoteAddrLow16 => beNat (g.key.remoteAddr.drop (g.key.remoteAddr.length - 2))

/-- An entry takes part in the lookup of a segment of a lane and covers its value: with b the base and v the value,
both without the don't-care bits, b ≤ v < b + 2^k (R38, R40). -/
abbrev MatchWindow.covers (w : MatchWindow) (l : LaneId) (g : Segment) : Prop :=
  w.enable = true ∧ w.lanes.getLsbD l.val = true ∧
    (w.base &&& ~~~ w.dc).toNat ≤ (BitVec.ofNat 16 (g.tested w.field) &&& ~~~ w.dc).toNat ∧
    (BitVec.ofNat 16 (g.tested w.field) &&& ~~~ w.dc).toNat < (w.base &&& ~~~ w.dc).toNat + 2 ^ w.k

end Sys2Proof.Machine

namespace Sys2Proof

/-- The command a step gives the control engine: its code and its parameter bytes (Table 9-3). -/
def Instr.command : Instr → Option (Byte × List Byte)
  | .keepalive p => some (0x01, p)
  | .readChip p => some (0x02, p)
  | .writeChip p => some (0x03, p)
  | .setTimebase p => some (0x04, p)
  | .ackEvents p => some (0x05, p)
  | .setLaneMode p => some (0x10, p)
  | .writeLaneParams p => some (0x11, p)
  | .readLane p => some (0x12, p)
  | .readCounters p => some (0x13, p)
  | .flushFlows p => some (0x14, p)
  | .releaseLane p => some (0x15, p)
  | .startProbe p => some (0x16, p)
  | .writeClass p => some (0x20, p)
  | .readClass p => some (0x21, p)
  | .readFlows p => some (0x30, p)
  | .evictFlow p => some (0x31, p)
  | .chipReset p => some (0x7F, p)
  | .powerOn | .rstNAssert | .rstNRelease _ _ _ | .inboundArrival _ _ | .outboundArrival _ _ => none
  | .outputFrameEnd _ | .responseHandover | .drainRelease _ | .epochTick | .flowTableTick => none
  | .expectationTimeout _ | .ageLimit _ | .gateTick | .holdLimit _ | .probeTick | .probeWindowStart => none
  | .probeCompletion | .probeIntervalRequest _ | .keepaliveTick | .keepaliveExpiry | .refclkStop | .refclkReturn => none

/-- The steps that are events of the pins (R1, R183, R184). -/
def Instr.isPin : Instr → Bool
  | .powerOn | .rstNAssert | .rstNRelease _ _ _ | .refclkStop | .refclkReturn => true
  | .inboundArrival _ _ | .outboundArrival _ _ | .outputFrameEnd _ | .responseHandover | .keepalive _ => false
  | .readChip _ | .writeChip _ | .setTimebase _ | .ackEvents _ | .setLaneMode _ | .writeLaneParams _ => false
  | .readLane _ | .readCounters _ | .flushFlows _ | .releaseLane _ | .startProbe _ | .writeClass _ => false
  | .readClass _ | .readFlows _ | .evictFlow _ | .chipReset _ | .drainRelease _ | .epochTick => false
  | .flowTableTick | .expectationTimeout _ | .ageLimit _ | .gateTick | .holdLimit _ | .probeTick => false
  | .probeWindowStart | .probeCompletion | .probeIntervalRequest _ | .keepaliveTick | .keepaliveExpiry => false

/-- The steps that a stopped REFCLK keeps from happening: frames of the ports and events of the epoch tick (R184). -/
def Instr.needsClock : Instr → Bool
  | .inboundArrival _ _ | .outboundArrival _ _ | .outputFrameEnd _ | .epochTick | .flowTableTick => true
  | .expectationTimeout _ | .ageLimit _ | .gateTick | .holdLimit _ | .probeTick | .probeWindowStart => true
  | .probeCompletion | .probeIntervalRequest _ | .keepaliveTick | .keepaliveExpiry => true
  | .powerOn | .rstNAssert | .rstNRelease _ _ _ | .refclkStop | .refclkReturn | .responseHandover => false
  | .keepalive _ | .readChip _ | .writeChip _ | .setTimebase _ | .ackEvents _ | .setLaneMode _ => false
  | .writeLaneParams _ | .readLane _ | .readCounters _ | .flushFlows _ | .releaseLane _ | .startProbe _ => false
  | .writeClass _ | .readClass _ | .readFlows _ | .evictFlow _ | .chipReset _ | .drainRelease _ => false

/-- The lane whose frames an event of the lane path moves in or out (R13, R14, R16). -/
def Instr.portLane : Instr → Option LaneId
  | .inboundArrival l _ | .outboundArrival l _ | .outputFrameEnd l | .drainRelease l => some l
  | .powerOn | .rstNAssert | .rstNRelease _ _ _ | .refclkStop | .refclkReturn | .responseHandover => none
  | .keepalive _ | .readChip _ | .writeChip _ | .setTimebase _ | .ackEvents _ | .setLaneMode _ => none
  | .writeLaneParams _ | .readLane _ | .readCounters _ | .flushFlows _ | .releaseLane _ | .startProbe _ => none
  | .writeClass _ | .readClass _ | .readFlows _ | .evictFlow _ | .chipReset _ | .epochTick => none
  | .flowTableTick | .expectationTimeout _ | .ageLimit _ | .gateTick | .holdLimit _ | .probeTick => none
  | .probeWindowStart | .probeCompletion | .probeIntervalRequest _ | .keepaliveTick | .keepaliveExpiry => none

end Sys2Proof
end

