-- ==== Sys2Proof/Certificates/Slice0/Obligations.lean ====
section
/-! DEFINITION. The statements of this model, each about every state or every operand of its kind. A statement's
docstring names the rules it rests on, and the model's own choices by their log entries. -/

open Sys2Proof Sys2Proof.Machine

/-! ### The step, the clock and the pins -/

/-- A step takes the command at the front of the queue and is exec of it on the state with the queue's rest; and exec
answers a next state for every command on every state, so no command faults and none is refused. The model's interface:
notes/assumptions/3.md. -/
def Obligations.StepRunsTheFrontCommand : Prop :=
  ∀ (c : Instr) (rest : List Instr) (s : State),
    step { s with pending := c :: rest } = exec c { s with pending := rest } ∧
    ∃ t : State, exec c s = .next t

/-- With nothing waiting, a step is one cycle of the reference clock: the two stages count, and at the end of an
epoch the five events of an epoch tick wait, each once, in some order (R136, R137). Running the clock on an empty
queue and the free order are the model's: notes/assumptions/3.md. -/
def Obligations.IdleStepCountsOneClockCycle : Prop :=
  ∀ s : State, s.pending = [] →
    (s.clocked = false → step s = .next s) ∧
    (s.clocked = true → s.timer.prescaleCount + 1 < s.timer.prescale →
      step s = .next { s with timer := { s.timer with prescaleCount := s.timer.prescaleCount + 1 } }) ∧
    (s.clocked = true → s.timer.prescale ≤ s.timer.prescaleCount + 1 →
      s.timer.epochCount + 1 < s.timer.epochDivisor →
      step s = .next { s with
        timer := { s.timer with prescaleCount := 0, epochCount := s.timer.epochCount + 1 } }) ∧
    (s.clocked = true → s.timer.prescale ≤ s.timer.prescaleCount + 1 →
      s.timer.epochDivisor ≤ s.timer.epochCount + 1 →
      ∃ order : List Instr,
        order.Perm [.epochTick, .flowTableTick, .gateTick, .probeTick, .keepaliveTick] ∧
        step s = .next { s with
          timer := { s.timer with prescaleCount := 0, epochCount := 0 }
          pending := order
          orderIndex := s.orderIndex + 1 })

/-- Power-on and the reset pin leave every block at its power-on values, and the release samples the straps. A
release with RST_N high already is no edge and changes nothing (the model's: notes/assumptions/6.md); what lies
outside the part stands (notes/assumptions/5.md). REFCLK stops and returns with every count where it stood (R184). -/
def Obligations.PinEventsSetTheBlocks : Prop :=
  (∀ s : State, ∃ t : State, exec .powerOn s = .next t ∧ t.AtPowerOn ∧ t.rstN = s.rstN ∧ t.refclk = s.refclk ∧
    t.stationSent = s.stationSent ∧ t.fabricSent = s.fabricSent ∧ t.pending = s.pending) ∧
  (∀ s : State, ∃ t : State, exec .rstNAssert s = .next t ∧ t.AtPowerOn ∧ t.rstN = false ∧ t.alertLow = false ∧
    t.refclk = s.refclk ∧ t.stationSent = s.stationSent ∧ t.fabricSent = s.fabricSent ∧ t.pending = s.pending) ∧
  (∀ (s : State) (addr : BitVec 4) (ctlsel : BitVec 2) (spd : BitVec 1), s.rstN = false →
    ∃ t : State, exec (.rstNRelease addr ctlsel spd) s = .next t ∧ t.AtPowerOn ∧ t.rstN = true ∧
      t.straps = ⟨addr, ctlsel, spd⟩ ∧ t.alertLow = false ∧ t.refclk = s.refclk ∧ t.stationSent = s.stationSent ∧
      t.fabricSent = s.fabricSent ∧ t.pending = s.pending) ∧
  (∀ (s : State) (addr : BitVec 4) (ctlsel : BitVec 2) (spd : BitVec 1), s.rstN = true →
    exec (.rstNRelease addr ctlsel spd) s = .next s) ∧
  (∀ s : State, exec .refclkStop s = .next { s with refclk := false } ∧
    exec .refclkReturn s = .next { s with refclk := true })

/-- While RST_N is asserted nothing but the pins acts (R1, R183). While REFCLK stands, no frame of a port and no
event of an epoch tick acts (R184). -/
def Obligations.NothingHappensInResetOrWithoutClock : Prop :=
  (∀ (c : Instr) (s : State), s.rstN = false → c.isPin = false → exec c s = .next s) ∧
  (∀ (c : Instr) (s : State), s.refclk = false → c.needsClock = true → exec c s = .next s)

/-! ### Frames at the lane path -/

/-- R2: a frame above 9216 bytes is dropped in either direction and OVERSIZE counted, and nothing else happens. -/
def Obligations.OversizeFrameIsDropped : Prop :=
  (∀ (l : LaneId) (f : Frame) (s : State), s.clocked = true → 9216 < f.length →
    exec (.inboundArrival l f) s = .next (s.modLane l fun x =>
      { x with counters := { x.counters with oversize := bump x.counters.oversize } }) ∧
    exec (.outboundArrival l f) s = .next (s.modLane l fun x =>
      { x with counters := { x.counters with oversize := bump x.counters.oversize } })) ∧
  (∀ f : Frame, f.length = 9216 → isOversize f = false)

/-- R3: a bad frame is forwarded in its direction as received, and BADFCS counted; nothing else happens. -/
def Obligations.BadFrameIsForwarded : Prop :=
  ∀ (l : LaneId) (f : Frame) (s : State), s.clocked = true → f.length ≤ 9216 →
    (f.length < 64 ∨ f.drop (f.length - 4) ≠ fcsBytes (contentsOf f)) →
    exec (.inboundArrival l f) s = .next ((s.sendStation l f).modLane l fun x =>
      { x with counters := { x.counters with badFcs := bump x.counters.badFcs } }) ∧
    exec (.outboundArrival l f) s = .next ((s.makeReady l f).modLane l fun x =>
      { x with counters := { x.counters with badFcs := bump x.counters.badFcs } })

/-- A good frame that is no TCP segment is forwarded unchanged and counted OPAQUE; a control frame from the station
is dropped and counted STATIONCTL (R6, R11). And which frames these are: the EtherType stands behind no, one or two
tags and starts the network header (R4); a control frame has the control EtherType and the chip address or the group
address, and CTLSEL names the control-enabled lanes (R5); a TCP segment is an IPv4 or IPv6 packet of R7 and R8 with the
header of R9, and its report has the key oriented to the station, the DSCP, the flags, the payload length and, with SYN,
the option (R12); the option is the first whole kind 3 of a list that is not malformed, a shift above 14 taken as 14
(R10). -/
def Obligations.OpaqueAndStationControlFrames : Prop :=
  (∀ (l : LaneId) (f : Frame) (s : State), s.clocked = true → goodFrame f →
    (controlEnabled s.straps.ctlsel l && isControl s.control.etherType s.straps.addr f) = false →
    segmentOf .inbound f = none →
    exec (.inboundArrival l f) s = .next ((s.sendStation l f).countLane l .opaqueFrames)) ∧
  (∀ (l : LaneId) (f : Frame) (s : State), s.clocked = true → goodFrame f →
    isControl s.control.etherType s.straps.addr f = false → segmentOf .outbound f = none →
    exec (.outboundArrival l f) s = .next ((s.makeReady l f).countLane l .opaqueFrames)) ∧
  (∀ (l : LaneId) (f : Frame) (s : State), s.clocked = true → goodFrame f →
    isControl s.control.etherType s.straps.addr f = true →
    exec (.outboundArrival l f) s = .next (s.countLane l .stationCtl)) ∧
  (∀ (f : Frame) (h : EtherHeader), etherHeader f = some h ↔
    h.etherType = fieldAt f (h.netAt - 2) 2 ∧ h.netAt + 4 ≤ f.length ∧ h.etherType ≠ 0x8100 ∧ h.etherType ≠ 0x88A8 ∧
      (h.netAt = 14 ∧ 0x0600 ≤ h.etherType ∨
        h.netAt = 18 ∧ fieldAt f 12 2 ∈ [0x8100, 0x88A8] ∧ 0x0600 ≤ h.etherType ∨
        h.netAt = 22 ∧ fieldAt f 12 2 ∈ [0x8100, 0x88A8] ∧ fieldAt f 16 2 ∈ [0x8100, 0x88A8])) ∧
  (∀ (etherType : Nat) (addr : BitVec 4) (f : Frame), isControl etherType addr f = true ↔
    ∃ h : EtherHeader, etherHeader f = some h ∧ h.etherType = etherType ∧
      (f.take 6 = [0x0A, 0x3C, 0x71, 0x2F, 0x50, BitVec.ofNat 8 addr.toNat] ∨
        f.take 6 = [0x0B, 0x3C, 0x71, 0x2F, 0x50, 0xFF])) ∧
  (∀ (ctlsel : BitVec 2) (l : LaneId), controlEnabled ctlsel l = true ↔
    ctlsel = 0 ∧ l = 0 ∨ ctlsel = 1 ∧ (l = 0 ∨ l = 4) ∨ ctlsel = 2) ∧
  (∀ (d : Direction) (f : Frame) (g : Segment), segmentOf d f = some g ↔
    ∃ (h : EtherHeader) (v : IpVersion) (src dst : List Byte) (o present ihl total len tcpLen : Nat),
      etherHeader f = some h ∧ o = h.netAt ∧ present = f.length - 4 - o ∧
      ihl = byteAt f o % 16 * 4 ∧ total = fieldAt f (o + 2) 2 ∧
      (h.etherType = 0x0800 ∧ v = .v4 ∧ byteAt f o / 16 = 4 ∧ 20 ≤ ihl ∧ fieldAt f (o + 6) 2 % 0x4000 = 0 ∧
          byteAt f (o + 9) = 6 ∧ total ≤ present ∧ ihl + 20 ≤ total ∧ src = bytesAt f (o + 12) 4 ∧
          dst = bytesAt f (o + 16) 4 ∧ g.dscp = byteAt f (o + 1) / 4 ∧ g.tcpAt = o + ihl ∧ len = total - ihl ∨
        h.etherType = 0x86DD ∧ v = .v6 ∧ byteAt f o / 16 = 6 ∧ byteAt f (o + 6) = 6 ∧ len = fieldAt f (o + 4) 2 ∧
          len ≤ present - 40 ∧ 20 ≤ len ∧ src = bytesAt f (o + 8) 16 ∧ dst = bytesAt f (o + 24) 16 ∧
          g.dscp = (byteAt f o % 16 * 16 + byteAt f (o + 1) / 16) / 4 ∧ g.tcpAt = o + 40) ∧
      tcpLen = byteAt f (g.tcpAt + 12) / 16 * 4 ∧ 20 ≤ tcpLen ∧ tcpLen ≤ len ∧
      g.direction = d ∧ g.payloadLen = len - tcpLen ∧
      g.key = (match d with
        | .outbound => ⟨v, src, fieldAt f g.tcpAt 2, dst, fieldAt f (g.tcpAt + 2) 2⟩
        | .inbound => ⟨v, dst, fieldAt f (g.tcpAt + 2) 2, src, fieldAt f g.tcpAt 2⟩) ∧
      g.fin = (byteAt f (g.tcpAt + 13)).testBit 0 ∧ g.syn = (byteAt f (g.tcpAt + 13)).testBit 1 ∧
      g.rst = (byteAt f (g.tcpAt + 13)).testBit 2 ∧ g.ack = (byteAt f (g.tcpAt + 13)).testBit 4 ∧
      g.scaleOption = if g.syn then scaleOption (bytesAt f (g.tcpAt + 20) (tcpLen - 20)) else none) ∧
  (∀ (options : List (List Byte)) (tail : List Byte), (∀ o ∈ options, wholeOption o) →
    (tail = [] ∨ byteAt tail 0 = 0 → scaleOption (options.flatten ++ tail) =
      (options.find? fun o => byteAt o 0 = 3).map fun o => min 14 (byteAt o 2)) ∧
    (brokenOption tail → scaleOption (options.flatten ++ tail) = none))

/-- A control frame on a control-enabled lane is consumed: malformed or with the FIFO full it is dropped with its
counter and CTLDROP; otherwise it is counted accepted and appended, and taken at once by an IDLE engine whose FIFO was
empty (R5, R155 to R157). The control payload lies behind the EtherType and ends before the FCS, and it is malformed
shorter than 6 or longer than 1500 bytes, of a version other than 1, or with a count of 0 or above 32 (R155). What the
engine opens on taking a frame: a response without items, the first command behind the 6-byte header, as many commands
as the count, and a result space of 1500 - 6 - 4 * count; the walk passes over commands of no defined code, UNKNOWN, and
from an overrun on over all, ABANDONED, to the first to execute; with none to execute the response is complete and waits
in HAND-OVER (R157 to R161). -/
def Obligations.ControlFrameIsConsumed : Prop :=
  (∀ (l : LaneId) (f : Frame) (s : State), s.clocked = true → goodFrame f →
    controlEnabled s.straps.ctlsel l = true → isControl s.control.etherType s.straps.addr f = true →
    (isMalformed (controlPayload f) = true →
      exec (.inboundArrival l f) s = .next (State.latchEvent
        { s with control := { s.control with malformed := bump s.control.malformed } } .ctlDrop)) ∧
    (isMalformed (controlPayload f) = false → 4 ≤ s.control.fifo.length →
      exec (.inboundArrival l f) s = .next (State.latchEvent
        { s with control := { s.control with fifoFull := bump s.control.fifoFull } } .ctlDrop)) ∧
    (isMalformed (controlPayload f) = false → s.control.fifo.length < 4 → s.control.engine ≠ .idle →
      exec (.inboundArrival l f) s = .next { s with
        control := { s.control with
          fifo := s.control.fifo ++ [(l, f)]
          accepted := bump s.control.accepted } }) ∧
    (isMalformed (controlPayload f) = false → s.control.fifo = [] → s.control.engine = .idle →
      ∃ t : State, exec (.inboundArrival l f) s = .next t ∧ t.control.engine.laneInHand = some l ∧
        t.control.engine ≠ .idle ∧ t.control.engine = takesUp s.control.etherType s.straps.addr l f ∧
        { t with control := { t.control with engine := .idle } } =
          { s with control := { s.control with accepted := bump s.control.accepted } })) ∧
  (∀ (f : Frame) (h : EtherHeader), etherHeader f = some h →
    controlPayload f = (f.take (f.length - 4)).drop h.netAt) ∧
  (∀ payload : List Byte, isMalformed payload = true ↔
    payload.length < 6 ∨ 1500 < payload.length ∨ byteAt payload 0 ≠ 1 ∨ byteAt payload 4 = 0 ∨ 32 < byteAt payload 4) ∧
  ∀ (etherType : Nat) (addr : BitVec 4) (l : LaneId) (f : Frame) (payload : List Byte) (count len : Nat) (code : Byte),
    payload = controlPayload f → count = byteAt payload 4 → len = byteAt payload 7 → payload[6]?.getD 0 = code →
    ∃ w : InService, takesUp etherType addr l f =
        (if w.remaining = 0 then .handOver l (w.response etherType addr) else .executing w) ∧
      w.lane = l ∧ w.frame = f ∧ w.payload = payload ∧ w.space = 1500 - 6 - 4 * count ∧
      w.items.length + w.remaining = count ∧
      (∀ i ∈ w.items, i.results = [] ∧ (i.status = 0x06 ∨ i.status = 0x08)) ∧
      (0 < w.remaining → w.next.isSome = true ∧ ∀ i ∈ w.items, i.status = 0x06) ∧
      (1 ≤ count → payload.length < 8 ∨ 250 < len ∨ payload.length < 8 + len →
        w.remaining = 0 ∧ ∀ i ∈ w.items, i.status = 0x08) ∧
      (1 ≤ count → 8 + len ≤ payload.length → len ≤ 250 →
        code ∈ [0x01, 0x02, 0x03, 0x04, 0x05, 0x10, 0x11, 0x12, 0x13, 0x14, 0x15, 0x16, 0x20, 0x21, 0x30, 0x31, 0x7F] →
        w = ⟨l, f, payload, 6, count, [], 1500 - 6 - 4 * count, false⟩ ∧ w.next = some (code, bytesAt payload 8 len)) ∧
      (1 ≤ count → 8 + len ≤ payload.length → len ≤ 250 →
        code ∉ [0x01, 0x02, 0x03, 0x04, 0x05, 0x10, 0x11, 0x12, 0x13, 0x14, 0x15, 0x16, 0x20, 0x21, 0x30, 0x31, 0x7F] →
        w.items.head? = some ⟨code, 0x06, []⟩)

/-- A frame of the fabric side that is neither oversize nor a control frame of a control-enabled lane leaves by the
station side with every byte as received, behind the frames that left before it, in every mode; and nothing else ever
sends a frame to the station (R13). -/
def Obligations.InboundFramesGoToTheStationInOrder : Prop :=
  (∀ (l : LaneId) (f : Frame) (s : State), s.clocked = true → isOversize f = false →
    (isBad f = true ∨
      (controlEnabled s.straps.ctlsel l && isControl s.control.etherType s.straps.addr f) = false) →
    ∃ t : State, exec (.inboundArrival l f) s = .next t ∧
      t.stationSent = s.stationSent.set l.val (s.stationSent.get l ++ [f]) l.isLt) ∧
  (∀ (c : Instr) (s t : State), exec c s = .next t → t.stationSent = s.stationSent ∨
    ∃ (l : LaneId) (f : Frame), c = .inboundArrival l f ∧
      t.stationSent = s.stationSent.set l.val (s.stationSent.get l ++ [f]) l.isLt)

/-! ### The flow table -/

/-- Inbound payload on a record: epoch bytes, expected, request open and idle ticks follow R63, a LEARNING record
opens with its scale UNKNOWN, and no other record changes. For a segment without SYN, FIN and RST, on a tracking lane,
with entries held or none; HandshakeLearnsTheScale has the segments with these flags. The event is then handed on: the
lane is recomputed and an ACTIVE lane's queue re-evaluated where R68 and R91 say so (that order is the model's:
notes/assumptions/20.md); where no entry waits to be re-evaluated only grants change besides. And the probe: a TCP segment
that arrives inbound on a tracking lane, with any flags and of any connection, raises the byte count by its payload
length, holding at 2^40 - 1, exactly when the engine is MEASURING that lane, and changes nothing else of the probe; no
frame from the station changes the probe at all (R148). -/
def Obligations.InboundPayloadIsCounted : Prop :=
  (∀ (l : LaneId) (f : Frame) (g : Segment) (s : State) (r : FlowRecord), s.clocked = true →
    s.inboundTcp l f g → (s.lane l).mode.tracking = true → g.syn = false → g.fin = false → g.rst = false →
    0 < g.payloadLen → s.findRecord l g.key = some r →
    ∃ (t u : State) (released : List QueueEntry), exec (.inboundArrival l f) s = .next t ∧
      u = { s.sendStation l f with
        pool := s.pool.map fun x =>
          if x.lane = l ∧ x.key = g.key then
            { x with
              epochBytes := min 4294967295 (x.epochBytes + g.payloadLen)
              expected := x.expected - g.payloadLen
              requestOpen := false
              idleTicks := 0
              seen := true
              scale := match x.state with
                | .learning _ => none
                | .opened | .closing => x.scale
              state := if x.state = .closing then .closing else .opened }
          else x } ∧
      s.HandedOn l u released { t with probe := s.probe } ∧
      (s.lane l).queue = released ++ (t.lane l).queue ∧
      (s.quiet l → (t.findRecord l g.key).map FlowRecord.apartGrant = some { r with
        grant := 0
        epochBytes := min 4294967295 (r.epochBytes + g.payloadLen)
        expected := r.expected - g.payloadLen
        requestOpen := false
        idleTicks := 0
        seen := true
        scale := match r.state with
          | .learning _ => none
          | .opened | .closing => r.scale
        state := if r.state = .closing then .closing else .opened } ∧
      (∀ (l' : LaneId) (k : FlowKey), (l', k) ≠ (l, g.key) →
        (t.findRecord l' k).map FlowRecord.apartGrant = (s.findRecord l' k).map FlowRecord.apartGrant) ∧
      ∀ l' : LaneId, (t.lane l').mode = (s.lane l').mode ∧ (t.lane l').queue = (s.lane l').queue ∧
        (t.lane l').params = (s.lane l').params ∧ (t.lane l').ready = (s.lane l').ready)) ∧
  (∀ (l : LaneId) (f : Frame) (g : Segment) (s : State), s.clocked = true → s.inboundTcp l f g →
    ∃ t : State, exec (.inboundArrival l f) s = .next t ∧
      (∀ r : ProbeRequest, (s.lane l).mode.tracking = true → s.probe.engine = .measuring r → r.lane = l →
        t.probe = { s.probe with byteCount := min 1099511627775 (s.probe.byteCount + g.payloadLen) }) ∧
      ((s.lane l).mode.tracking = false ∨ (∀ r : ProbeRequest, s.probe.engine = .measuring r → r.lane ≠ l) →
        t.probe = s.probe)) ∧
  (∀ (l : LaneId) (f : Frame) (s : State),
    (isOversize f = true ∨ isBad f = true ∨ segmentOf .inbound f = none →
      ∃ t : State, exec (.inboundArrival l f) s = .next t ∧ t.probe = s.probe) ∧
    ∃ t : State, exec (.outboundArrival l f) s = .next t ∧ t.probe = s.probe)

/-- An inbound segment of an unknown connection on a tracking lane, with entries held or none. An opening SYN, with
payload or without, creates a record in LEARNING with its opener and option, or in CLOSING where it carries FIN or RST;
any other segment with payload creates an OPEN record with its scale UNKNOWN, whatever its flags; in the lowest free
slot, with the class decision of the segment and its payload counted; no other record changes, and the event is handed on
(R68; the recompute first, the model's: notes/assumptions/20.md). A refusal for quota or pool counts UNTRACKED once, and
nothing else changes but the frame sent to the station and the probe's byte count; an EXEMPT decision creates nothing and
counts nothing; nor does a segment that neither opens nor carries payload (R45, R57, R58, R59, R62, R63). There is room
where the lane's record count is below its quota and a slot is free (R57). That an opening SYN with payload, once refused,
is not tried again for its payload is the model's reading: notes/assumptions/11.md. -/
def Obligations.UnknownConnectionIsCreatedOrUntracked : Prop :=
  (∀ (l : LaneId) (f : Frame) (g : Segment) (s : State) (opening : Bool) (new : FlowRecord), s.clocked = true →
    s.inboundTcp l f g → (s.lane l).mode.tracking = true → s.findRecord l g.key = none → opening = (g.syn && !g.ack) →
    new = {
      slot := lowestFree 0 s.pool
      lane := l
      key := g.key
      state := if opening = false then .opened
        else if g.rst = true ∨ g.fin = true then .closing
        else .learning (.remote g.scaleOption.isSome)
      scale := none
      cls := (s.lookup l g).cls
      weight := (s.lookup l g).weight
      grant := 0
      lastEdge := none
      expected := 0
      requestOpen := false
      epochBytes := min 4294967295 g.payloadLen
      dataLastEpoch := false
      idleTicks := 0
      seen := true } →
    ∃ t : State, exec (.inboundArrival l f) s = .next t ∧
      ((s.lookup l g).role ≠ .exempt → 0 < g.payloadLen ∨ opening = true →
        s.recordCount l < (s.lane l).params.quota → s.pool.length < 1024 →
        (∃ (u : State) (released : List QueueEntry), { u with pool := s.pool } = s.sendStation l f ∧
          u.pool.Perm (new :: s.pool) ∧ (s.PoolCanonical → u.PoolCanonical) ∧
          s.HandedOn l u released { t with probe := s.probe } ∧ (s.lane l).queue = released ++ (t.lane l).queue) ∧
        (s.quiet l → (t.findRecord l g.key).map FlowRecord.apartGrant = some new ∧
          t.recordCount l = s.recordCount l + 1 ∧ (t.lane l).counters = (s.lane l).counters)) ∧
      ((s.lookup l g).role ≠ .exempt → 0 < g.payloadLen ∨ opening = true →
        (s.lane l).params.quota ≤ s.recordCount l ∨ 1024 ≤ s.pool.length →
        { t with probe := s.probe } = (s.sendStation l f).modLane l (fun x =>
          { x with counters := { x.counters with untracked := bump x.counters.untracked } }) ∧
        t.pool = s.pool ∧
        (t.lane l).counters = { (s.lane l).counters with untracked := bump (s.lane l).counters.untracked }) ∧
      ((s.lookup l g).role = .exempt ∨ (g.payloadLen = 0 ∧ opening = false) →
        { t with probe := s.probe } = s.sendStation l f ∧
        t.pool = s.pool ∧ (t.lane l).counters = (s.lane l).counters)) ∧
  (∀ (s : State) (l : LaneId), s.hasRoom l = true ↔
    s.recordCount l < (s.lane l).params.quota ∧ s.pool.length < 1024)

/-- The handshake, opened by either side, on a tracking lane with entries held or none (R58 to R63). An opening SYN of an
unknown connection makes a LEARNING record that keeps the opener and its option; refused for quota or pool it counts
UNTRACKED once, for its payload too (the model's reading: notes/assumptions/11.md), and EXEMPT it makes nothing and counts
nothing. A segment that reaches a record acts on it in the steps of R59. SYN: on a record in LEARNING a SYN of the
opener's side replaces the option, and a SYN of the other side opens the record with the station's shift when both sides
offered the option, else 0; on an OPEN or CLOSING record a SYN with ACK changes nothing, and one without resets the record
for reuse, its class and weight kept under an EXEMPT decision. Close: an RST of either side, or a FIN of the remote, takes
the record so left to CLOSING; a FIN of the station does not. Payload: inbound payload is counted on the record so left,
in CLOSING too, and opens a LEARNING one with its scale UNKNOWN unless the segment carries SYN. Then the record is seen;
no other record changes, and the event is handed on (R68; the recompute first: notes/assumptions/20.md). A segment of the
station then follows the entries of its connection still held, as a FOLLOWER, or passes, rewritten unless in MONITOR (R103,
R104). Segments of the station that are request starts are AdmittedRequestIsChargedAndLeaves's. -/
def Obligations.HandshakeLearnsTheScale : Prop :=
  (∀ (d : Direction) (l : LaneId) (f : Frame) (g : Segment) (s : State), s.clocked = true → s.arrives d l f g →
    (s.lane l).mode.tracking = true → g.syn = true → g.ack = false → g.rst = false → g.payloadLen = 0 →
    (d = .inbound → g.fin = false) → s.findRecord l g.key = none → (s.lookup l g).role ≠ .exempt →
    s.recordCount l < (s.lane l).params.quota → s.pool.length < 1024 →
    ∃ (t : State) (r : FlowRecord), exec (arrival d l f) s = .next t ∧ t.findRecord l g.key = some r ∧
      r.slot = lowestFree 0 s.pool ∧ r.scale = none ∧
      r.state = .learning (match d with
        | .outbound => .station g.scaleOption
        | .inbound => .remote g.scaleOption.isSome) ∧
      r.cls = (s.lookup l g).cls ∧ r.weight = (s.lookup l g).weight ∧ r.expected = 0 ∧ r.requestOpen = false ∧
      r.lastEdge = none ∧ r.active = false ∧ (t.lane l).queue = (s.lane l).queue) ∧
  (∀ (d : Direction) (l : LaneId) (f : Frame) (g : Segment) (s : State), s.clocked = true → s.arrives d l f g →
    (s.lane l).mode.tracking = true → g.syn = true → g.ack = false → s.findRecord l g.key = none →
    (d = .outbound → g.payloadLen = 0 ∨ (s.lookup l g).role ≠ .request ∨ g.rst = true) →
    ∃ t : State, exec (arrival d l f) s = .next t ∧
      ((s.lookup l g).role = .exempt → t.pool = s.pool ∧ (t.lane l).counters = (s.lane l).counters) ∧
      ((s.lookup l g).role ≠ .exempt → (s.lane l).params.quota ≤ s.recordCount l ∨ 1024 ≤ s.pool.length →
        t.pool = s.pool ∧
        (t.lane l).counters = { (s.lane l).counters with untracked := bump (s.lane l).counters.untracked })) ∧
  (∀ (d : Direction) (l : LaneId) (f : Frame) (g : Segment) (s : State) (r : FlowRecord), s.clocked = true →
    (d = .inbound ∧ s.inboundTcp l f g ∨ d = .outbound ∧ s.outboundTcp f g) → (s.lane l).mode.tracking = true →
    s.findRecord l g.key = some r →
    (d = .outbound → g.payloadLen = 0 ∨ (s.lookup l g).role ≠ .request ∨ g.rst = true ∨
      (g.syn = false ∧ r.requestOpen = true) ∨ s.holds l g.key = true) →
    ∃ (t u v : State) (record : FlowRecord → FlowRecord) (released : List QueueEntry) (r2 r3 r4 : FlowRecord)
        (edge : Option SeqNum), exec (arrival d l f) s = .next t ∧ record r = { r4 with seen := true } ∧
      { u with stationSent := s.stationSent } =
        { s with pool := s.pool.map fun x => if x.lane = l ∧ x.key = g.key then record x else x } ∧
      s.HandedOn l u released v ∧ (s.lane l).queue = released ++ (v.lane l).queue ∧
      (d = .inbound → u.stationSent = (s.sendStation l f).stationSent ∧ { t with probe := s.probe } = v) ∧
      (d = .outbound → u.stationSent = s.stationSent ∧
        ((s.lane l).mode = .monitor → t = v.makeReady l f) ∧
        ((s.lane l).mode ≠ .monitor → v.holds l g.key = false →
          t = (v.rewrite l f).2.makeReady l (v.rewrite l f).1) ∧
        ((s.lane l).mode ≠ .monitor → v.holds l g.key = true → v.roomFor l f = true →
          t = v.modLane l fun x =>
            { x with
              queue := x.queue ++ [⟨.follower, g.key, f, 0⟩]
              counters := { x.counters with followed := bump x.counters.followed } })) ∧
      (s.quiet l → (d = .outbound → s.holds l g.key = false) →
        (t.findRecord l g.key).map FlowRecord.apartGrant =
          some { r4 with grant := 0, seen := true, lastEdge := edge } ∧
        (d = .inbound ∨ (s.lane l).mode = .monitor ∨ g.ack = false ∨ g.syn = true ∨ g.rst = true ∨ r4.scale = none →
          edge = r4.lastEdge) ∧
        ∀ (l' : LaneId) (k : FlowKey), (l', k) ≠ (l, g.key) →
          (t.findRecord l' k).map FlowRecord.apartGrant = (s.findRecord l' k).map FlowRecord.apartGrant) ∧
      (g.syn = false → r2 = r) ∧
      (∀ o : Option Nat, g.syn = true → d = .outbound → r.state = .learning (.station o) →
        r2 = { r with state := .learning (.station g.scaleOption) }) ∧
      (∀ o : Bool, g.syn = true → d = .inbound → r.state = .learning (.remote o) →
        r2 = { r with state := .learning (.remote g.scaleOption.isSome) }) ∧
      (∀ o : Option Nat, g.syn = true → d = .inbound → r.state = .learning (.station o) →
        r2 = { r with state := .opened, scale := some (if g.scaleOption.isSome then o.getD 0 else 0) }) ∧
      (∀ o : Bool, g.syn = true → d = .outbound → r.state = .learning (.remote o) →
        r2 = { r with state := .opened, scale := some (if o then g.scaleOption.getD 0 else 0) }) ∧
      (g.syn = true → r.state = .opened ∨ r.state = .closing → g.ack = true → r2 = r) ∧
      (g.syn = true → r.state = .opened ∨ r.state = .closing → g.ack = false → r2 = { r with
        state := .learning (match d with
          | .outbound => .station g.scaleOption
          | .inbound => .remote g.scaleOption.isSome)
        scale := none
        lastEdge := none
        expected := 0
        requestOpen := false
        epochBytes := 0
        dataLastEpoch := false
        idleTicks := 0
        cls := if (s.lookup l g).role = .exempt then r.cls else (s.lookup l g).cls
        weight := if (s.lookup l g).role = .exempt then r.weight else (s.lookup l g).weight }) ∧
      r3 = (if g.rst = true ∨ (d = .inbound ∧ g.fin = true) then { r2 with state := .closing } else r2) ∧
      r4 = (if d = .inbound ∧ 0 < g.payloadLen then
        { r3 with
          epochBytes := min 4294967295 (r3.epochBytes + g.payloadLen)
          expected := r3.expected - g.payloadLen
          requestOpen := false
          idleTicks := 0
          scale := match r3.state with
            | .learning _ => if g.syn = true then r3.scale else none
            | .opened | .closing => r3.scale
          state := match r3.state with
            | .learning o => if g.syn = true then .learning o else .opened
            | .opened => .opened
            | .closing => .closing }
        else r3)) ∧
  (∀ (l : LaneId) (f : Frame) (g : Segment) (s : State) (r : FlowRecord), s.clocked = true →
    s.arrives .outbound l f g → (s.lane l).mode.tracking = true → g.syn = false → g.rst = false → g.fin = true →
    g.payloadLen = 0 → s.findRecord l g.key = some r →
    ∃ (t : State) (edge : Option SeqNum), exec (.outboundArrival l f) s = .next t ∧
      t.findRecord l g.key = some { r with seen := true, lastEdge := edge } ∧
      ((s.lane l).mode = .monitor → edge = r.lastEdge))

/-! ### The grant engine -/

/-- R84 and R85: the grants of a recompute. In FLOOR every active record gets F and its share by weight of the
remainder, in FALLBACK its share by weight of B; W is at least n, the products stay below 2^28, the grants sum to at most
B and leave at most n - 1 bytes over, a greater weight gets no smaller grant, and a record that is not active gets 0
(R86). That every weight lies in 1 to 15 is kept by every step (StepKeepsParamsAndScales). -/
def Obligations.GrantsDivideTheBudget : Prop :=
  ∀ (s t : State) (l : LaneId) (p : LaneParams) (b n w : Nat), t = s.recompute l → p = (s.lane l).params →
    b = (t.lane l).budget → n = (t.activeRecords l).length → w = ((t.activeRecords l).map (·.weight)).sum →
    (∀ r ∈ s.activeRecords l, 1 ≤ r.weight ∧ r.weight ≤ 15) →
    ((t.lane l).regime = .floor ↔ n * p.floorGrant ≤ b) ∧ n ≤ w ∧
    (∀ r ∈ t.activeRecords l, ((t.lane l).regime = .floor →
        r.grant = p.floorGrant + (b - n * p.floorGrant) * r.weight / w ∧ p.floorGrant ≤ r.grant ∧
        (b - n * p.floorGrant) * r.weight < 2 ^ 28) ∧
      ((t.lane l).regime = .fallback → r.grant = b * r.weight / w ∧ b * r.weight < 2 ^ 28)) ∧
    (∀ r ∈ t.records l, r.active = false → r.grant = 0) ∧
    (∀ r ∈ t.activeRecords l, ∀ r' ∈ t.activeRecords l, r.weight ≤ r'.weight → r.grant ≤ r'.grant) ∧
    ((t.records l).map (·.grant)).sum ≤ b ∧
    (1 ≤ n → b - ((t.records l).map (·.grant)).sum ≤ n - 1)

/-! ### The gate -/

/-- A request start that leaves at once. On an ACTIVE lane with an empty queue, where it passes admission, it is charged,
rewritten from the state after its charge, and joins the arbiter behind every earlier frame, and nothing is counted
GATED; without a record and without room for one, UNTRACKED is counted and nothing is charged (R101, R105 to R107).
The same request start passes in DRAINING without the admission test (R103), and in MONITOR it is charged and leaves
unchanged (R104). The second part covers segments with SYN too: the charge is then made on the state that the segment's
report and its hand-on leave; the hand-on's order is the model's: notes/assumptions/10.md, notes/assumptions/20.md. -/
def Obligations.AdmittedRequestIsChargedAndLeaves : Prop :=
  (∀ (l : LaneId) (f : Frame) (g : Segment) (s s1 : State), s.clocked = true → s.outboundTcp f g →
    (s.lane l).mode = .active → (s.lane l).queue = [] → g.syn = false → g.rst = false → 0 < g.payloadLen →
    (s.lookup l g).role = .request → (∀ r : FlowRecord, s.findRecord l g.key = some r → r.requestOpen = false) →
    s.passesAdmission l g.key (s.lookup l g).cost = true →
    s1 = (s.modRecord l g.key fun r => { r with seen := true }).charge l g.key (s.lookup l g) →
    ∃ t : State, exec (.outboundArrival l f) s = .next t ∧ (t.lane l).queue = [] ∧
      (t.lane l).mode = .active ∧ t.framesOf l = s.framesOf l ++ [(s1.rewrite l f).1] ∧
      (s1.rewrite l f).1.length = f.length ∧
      (t.lane l).counters.gated = (s.lane l).counters.gated ∧
      (∀ r : FlowRecord, s.findRecord l g.key = some r →
        ∃ r' : FlowRecord, t.findRecord l g.key = some r' ∧
          r'.expected = min 16777215 (r.expected + (s.lookup l g).cost) ∧ r'.requestOpen = true ∧ r'.seen = true ∧
          r'.state = r.state ∧ r'.idleTicks = r.idleTicks ∧ r'.epochBytes = r.epochBytes) ∧
      (s.findRecord l g.key = none → s.hasRoom l = true →
        ∃ r' : FlowRecord, t.findRecord l g.key = some r' ∧ r'.state = .opened ∧ r'.scale = none ∧
          r'.slot = lowestFree 0 s.pool ∧ r'.expected = min 16777215 (s.lookup l g).cost ∧ r'.requestOpen = true ∧
          r'.cls = (s.lookup l g).cls ∧ r'.weight = (s.lookup l g).weight) ∧
      (s.findRecord l g.key = none → s.hasRoom l = false →
        t.pool = s.pool ∧ (t.lane l).counters.untracked = bump (s.lane l).counters.untracked)) ∧
  (∀ (l : LaneId) (f : Frame) (g : Segment) (s s0 s1 : State) (d : ClassDecision), s.clocked = true →
    s.outboundTcp f g → (s.lane l).mode.tracking = true → s.holds l g.key = false → g.rst = false →
    0 < g.payloadLen → d = s.lookup l g → d.role = .request →
    (∀ r : FlowRecord, (s.reportSegment l g).findRecord l g.key = some r → r.requestOpen = false) →
    s0 = (s.reportSegment l g).handOn l s →
    ((s.lane l).mode = .active → (s0.lane l).queue = [] ∧ s0.passesAdmission l g.key d.cost = true) →
    s1 = s0.charge l g.key d →
    ((s.lane l).mode = .monitor → exec (.outboundArrival l f) s = .next (s1.makeReady l f)) ∧
    ((s.lane l).mode ≠ .monitor →
      exec (.outboundArrival l f) s = .next ((s1.rewrite l f).2.makeReady l (s1.rewrite l f).1)) ∧
    (s1.lane l).counters.gated = (s.lane l).counters.gated ∧
    (g.syn = false → s0 = s.modRecord l g.key fun r => { r with seen := true }) ∧
    (∀ r : FlowRecord, s0.findRecord l g.key = some r →
      ∃ r' : FlowRecord, s1.findRecord l g.key = some r' ∧ { r' with grant := r.grant } = { r with
        expected := min 16777215 (r.expected + d.cost), requestOpen := true, seen := true }) ∧
    (s0.findRecord l g.key = none → s0.hasRoom l = true →
      ∃ r' : FlowRecord, s1.findRecord l g.key = some r' ∧ r'.state = .opened ∧ r'.scale = none ∧
        r'.slot = lowestFree 0 s0.pool ∧ r'.expected = min 16777215 d.cost ∧ r'.requestOpen = true ∧
        r'.cls = d.cls ∧ r'.weight = d.weight) ∧
    (s0.findRecord l g.key = none → s0.hasRoom l = false →
      s1 = s0.modLane l fun x => { x with counters := { x.counters with untracked := bump x.counters.untracked } }))

/-- A frame the gate is to hold and has room for is appended at the tail with held ticks 0 and its bytes as the station
sent them, its counter counted, and nothing else changes but its record's seen: a segment of a connection with entries
held as a FOLLOWER, and on an ACTIVE lane a request start that meets entries or fails admission as GATED with its
decision (R98, R99, R101, R103). For segments without SYN and RST. -/
def Obligations.HeldFrameIsAppended : Prop :=
  (∀ (l : LaneId) (f : Frame) (g : Segment) (s : State), s.clocked = true → s.outboundTcp f g →
    (s.lane l).mode.enforcing = true → g.syn = false → g.rst = false → s.holds l g.key = true →
    s.roomFor l f = true →
    exec (.outboundArrival l f) s =
      .next ((s.modRecord l g.key fun r => { r with seen := true }).modLane l fun x =>
        { x with
          queue := x.queue ++ [⟨.follower, g.key, f, 0⟩]
          counters := { x.counters with followed := bump x.counters.followed } })) ∧
  (∀ (l : LaneId) (f : Frame) (g : Segment) (s : State), s.clocked = true → s.outboundTcp f g →
    (s.lane l).mode = .active → g.syn = false → g.rst = false → 0 < g.payloadLen →
    (s.lookup l g).role = .request → (∀ r : FlowRecord, s.findRecord l g.key = some r → r.requestOpen = false) →
    s.holds l g.key = false →
    ((s.lane l).queue ≠ [] ∨ s.passesAdmission l g.key (s.lookup l g).cost = false) → s.roomFor l f = true →
    exec (.outboundArrival l f) s =
      .next ((s.modRecord l g.key fun r => { r with seen := true }).modLane l fun x =>
        { x with
          queue := x.queue ++ [⟨.gated (s.lookup l g), g.key, f, 0⟩]
          counters := { x.counters with gated := bump x.counters.gated } }))

/-- An overflow flush: a frame to be held that finds no room empties its lane's queue and leaves behind every held
frame. The held frames leave in queue order and the arriving one last, each as it was but for its window, checksum and
FCS; each record is charged for its GATED entries and for the arriving frame where it is a request start, and for
nothing else; a request of a connection without a record makes one, or UNTRACKED is counted (R57, R58, R107). FLUSHES is
counted once, GATEFLUSH is latched, nothing is counted FORCED, GATED or FOLLOWED, and a DRAINING lane enters its target
(R16, R106, R107, R113, R114). For segments without SYN and RST. -/
def Obligations.OverflowFlushReleasesTheQueue : Prop :=
  ∀ (l : LaneId) (f : Frame) (g : Segment) (kind : EntryKind) (s : State), s.clocked = true → s.outboundTcp f g →
    (s.lane l).mode.enforcing = true → g.syn = false → g.rst = false → s.roomFor l f = false →
    (s.holds l g.key = true ∧ kind = .follower ∨
      (s.holds l g.key = false ∧ kind = .gated (s.lookup l g) ∧
        (s.lane l).mode = .active ∧ 0 < g.payloadLen ∧ (s.lookup l g).role = .request ∧
        (∀ r : FlowRecord, s.findRecord l g.key = some r → r.requestOpen = false) ∧
        ((s.lane l).queue ≠ [] ∨ s.passesAdmission l g.key (s.lookup l g).cost = false))) →
    ∃ t : State, exec (.outboundArrival l f) s = .next t ∧ (t.lane l).queue = [] ∧
      s.Released l ((s.lane l).queue ++ [⟨kind, g.key, f, 0⟩]) t ∧
      (t.framesOf l).length = (s.framesOf l).length + 1 ∧
      (t.lane l).counters.flushes = bump (s.lane l).counters.flushes ∧ t.latched (.gateFlush l) = true ∧
      (t.lane l).counters.forced = (s.lane l).counters.forced ∧
      (t.lane l).counters.gated = (s.lane l).counters.gated ∧
      (t.lane l).counters.followed = (s.lane l).counters.followed ∧
      (t.lane l).mode = (match (s.lane l).mode, (s.lane l).target with
        | .draining, .monitor => .monitor
        | .draining, _ => .bypass
        | m, _ => m)

/-- On a lane in BYPASS, MONITOR or FAILSAFE that holds nothing, an outbound TCP segment leaves unchanged behind every
earlier frame, and nothing is held; in BYPASS and FAILSAFE nothing else happens at all (R14, R21, R22, R25, R104). -/
def Obligations.UnenforcedLanePassesUnchanged : Prop :=
  ∀ (l : LaneId) (f : Frame) (g : Segment) (s : State), s.clocked = true → s.outboundTcp f g →
    (s.lane l).mode.enforcing = false → (s.lane l).queue = [] →
    ∃ t : State, exec (.outboundArrival l f) s = .next t ∧ t.framesOf l = s.framesOf l ++ [f] ∧
      (t.lane l).queue = [] ∧ (t.lane l).mode = (s.lane l).mode ∧
      ((s.lane l).mode.tracking = false → t = s.makeReady l f)

/-! ### The window rewriter -/

/-- The rewriter changes no byte of a segment but the window field, the TCP checksum and the FCS, never raises the
window and keeps the length; a frame it changes has a good FCS, and a frame that is no TCP segment is not touched
(R122, R130, R132). It passes a segment without ACK, with SYN or RST, or without a record, and records nothing (R123,
R124); it counts UNSCALED for a record of unknown scale (R124); it keeps the window of an inactive record and sets the
last edge from the station's field (R125); and for an active one it writes the computed field where that is lower,
counts LOWERED and sets the last edge from the field the segment leaves with (R126, R129). -/
def Obligations.RewriterChangesThreeFieldsOnly : Prop :=
  (∀ (s : State) (l : LaneId) (f : Frame) (g : Segment), segmentOf .outbound f = some g →
    (s.rewrite l f).1.length = f.length ∧
    windowField (s.rewrite l f).1 g ≤ windowField f g ∧
    ((s.rewrite l f).1 ≠ f →
      (s.rewrite l f).1.drop (f.length - 4) = fcsBytes (contentsOf (s.rewrite l f).1)) ∧
    ∀ i : Nat, i < f.length - 4 → (i < g.tcpAt + 14 ∨ g.tcpAt + 18 ≤ i) → (s.rewrite l f).1[i]? = f[i]?) ∧
  (∀ (s : State) (l : LaneId) (f : Frame), segmentOf .outbound f = none → s.rewrite l f = (f, s)) ∧
  (∀ (s : State) (l : LaneId) (f : Frame) (g : Segment), segmentOf .outbound f = some g →
    (g.ack = false ∨ g.syn = true ∨ g.rst = true ∨ s.findRecord l g.key = none → s.rewrite l f = (f, s)) ∧
    (∀ r : FlowRecord, s.findRecord l g.key = some r → g.ack = true → g.syn = false → g.rst = false →
      (r.scale = none → s.rewrite l f = (f, s.modLane l fun x =>
        { x with counters := { x.counters with unscaled := bump x.counters.unscaled } })) ∧
      (∀ sc out : Nat, r.scale = some sc →
        out = windowOut r.grant sc (windowField f g) r.lastEdge (ackNumber f g) →
        (r.active = false ∨ windowField f g ≤ out → s.rewrite l f = (f, s.modRecord l g.key fun x =>
          { x with lastEdge := some (rightEdge (ackNumber f g) (windowField f g) sc) })) ∧
        (r.active = true → out < windowField f g →
          windowField (s.rewrite l f).1 g = out ∧
          (s.rewrite l f).2 =
            (s.modRecord l g.key fun x =>
              { x with lastEdge := some (rightEdge (ackNumber f g) out sc) }).modLane l fun x =>
                { x with counters := { x.counters with lowered := bump x.counters.lowered } }))))

/-- The window computation: the least of the station's field and the greatest of three terms, the grant's whole units,
the least number of units that reaches the last edge where it lies right of the acknowledgement, and 1 (R127). So the
written field is never above the station's, is 0 exactly when the station's is, never falls below the grant's whole
units where the station allows them, and never shows a right edge left of the last one recorded unless the station's own
field does (R128, R129). -/
def Obligations.WindowKeepsTheEdgeAlreadyShown : Prop :=
  ∀ (grant scale fin : Nat) (lastEdge : Option SeqNum) (ack : SeqNum), scale ≤ 14 → fin ≤ 65535 →
    (∃ e : Nat, windowOut grant scale fin lastEdge ack = min fin (max (max (grant / 2 ^ scale) e) 1) ∧
      (lastEdge = none → e = 0) ∧
      ∀ u : SeqNum, lastEdge = some u → ((u - ack).toInt ≤ 0 → e = 0) ∧
        (u - ack).toInt ≤ (e * 2 ^ scale : Nat) ∧
        ∀ m : Nat, (u - ack).toInt ≤ (m * 2 ^ scale : Nat) → e ≤ m) ∧
    windowOut grant scale fin lastEdge ack ≤ fin ∧
    (windowOut grant scale fin lastEdge ack = 0 ↔ fin = 0) ∧
    min fin (grant / 2 ^ scale) ≤ windowOut grant scale fin lastEdge ack ∧
    ∀ u : SeqNum, lastEdge = some u → 0 ≤ (rightEdge ack fin scale - u).toInt →
      0 ≤ (rightEdge ack (windowOut grant scale fin lastEdge ack) scale - u).toInt

/-- R131: the new checksum is NOT(NOT y + NOT m + m') in one's-complement addition, so it differs from the old by
exactly the change of the window field; a frame the rewriter changes carries the checksum so updated, computed from the
two window fields and the old checksum alone. -/
def Obligations.ChecksumChangesWithTheWindow : Prop :=
  (∀ y m m' : BitVec 16,
    updateChecksum y m m' = ~~~ (onesAdd (onesAdd (~~~ y) (~~~ m)) m') ∧
    (∀ a b : BitVec 16, (onesAdd a b).toNat = (a.toNat + b.toNat) % 65536 + (a.toNat + b.toNat) / 65536) ∧
    ((updateChecksum y m m').toNat + m'.toNat) % 65535 = (y.toNat + m.toNat) % 65535) ∧
  (∀ (s : State) (l : LaneId) (f : Frame) (g : Segment), segmentOf .outbound f = some g → (s.rewrite l f).1 ≠ f →
    tcpChecksum (s.rewrite l f).1 g = updateChecksum (tcpChecksum f g) (BitVec.ofNat 16 (windowField f g))
      (BitVec.ofNat 16 (windowField (s.rewrite l f).1 g)))

/-! ### The merge arbiter -/

/-- The end of a frame on the fabric side: the frame has left, and the response in the slot goes next, else the head of
the ready list, else the output is IDLE (R16, R17). Where the response in the slot starts and another waits in
HAND-OVER for the lane, the arbiter takes that one into the slot, and the engine is IDLE or takes the head of the FIFO,
opening it as ControlFrameIsConsumed says (R17, R157, R160; taken inside this event by the model's notes/assumptions/9.md). The clauses leave out
a DRAINING lane whose ready list the event empties: DrainReleasesTheHead says what that brings. -/
def Obligations.OutputStartsResponseThenReady : Prop :=
  ∀ (l : LaneId) (f : Frame) (s : State), s.clocked = true → (s.lane l).output = some f →
    (∀ r : Frame, (s.lane l).response = some r → ((s.lane l).mode = .draining → (s.lane l).ready ≠ []) →
      (∀ r' : Frame, s.control.engine ≠ .handOver l r') →
      exec (.outputFrameEnd l) s = .next ((s.sendFabric l f).modLane l fun x =>
        { x with output := some r, response := none })) ∧
    (∀ r r' : Frame, (s.lane l).response = some r → ((s.lane l).mode = .draining → (s.lane l).ready ≠ []) →
      s.control.engine = .handOver l r' →
      ∃ t : State, exec (.outputFrameEnd l) s = .next t ∧
        t.lanes = ((s.sendFabric l f).modLane l fun x => { x with output := some r, response := some r' }).lanes ∧
        (s.control.fifo = [] → t.control = { s.control with engine := .idle }) ∧
        (∀ (l' : LaneId) (f' : Frame) (rest : List (LaneId × Frame)), s.control.fifo = (l', f') :: rest →
          t.control.engine.laneInHand = some l' ∧
          t.control.engine = takesUp s.control.etherType s.straps.addr l' f' ∧
          { t.control with engine := .idle } = { s.control with engine := .idle, fifo := rest }) ∧
        { t with lanes := s.lanes, control := s.control } = s.sendFabric l f) ∧
    (∀ (h : Frame) (rest : List Frame), (s.lane l).response = none → (s.lane l).ready = h :: rest →
      ((s.lane l).mode = .draining → rest ≠ []) →
      exec (.outputFrameEnd l) s = .next ((s.sendFabric l f).modLane l fun x =>
        { x with output := some h, ready := rest })) ∧
    ((s.lane l).response = none → (s.lane l).ready = [] → (s.lane l).mode ≠ .draining →
      exec (.outputFrameEnd l) s = .next ((s.sendFabric l f).modLane l fun x => { x with output := none }))

/-- The hand-over: a response in HAND-OVER goes into its lane's empty slot, or starts at once on an IDLE output, and
the engine is IDLE or takes the head of the FIFO, opening it as ControlFrameIsConsumed says, its EtherType and its
counters kept; with the slot full the hand-over waits (R17, R157, R160, R161). -/
def Obligations.ResponseIsHandedOver : Prop :=
  ∀ (l : LaneId) (r : Frame) (s : State), s.rstN = true → s.control.engine = .handOver l r →
    ((s.lane l).response ≠ none → exec .responseHandover s = .next s) ∧
    ((s.lane l).response = none → ∃ t : State, exec .responseHandover s = .next t ∧
      t.lanes = (s.modLane l fun x =>
        if x.output = none then { x with output := some r } else { x with response := some r }).lanes ∧
      (s.control.fifo = [] → t.control = { s.control with engine := .idle }) ∧
      (∀ (l' : LaneId) (f : Frame) (rest : List (LaneId × Frame)), s.control.fifo = (l', f) :: rest →
        t.control.fifo = rest ∧ t.control.engine.laneInHand = some l' ∧
        t.control.engine = takesUp s.control.etherType s.straps.addr l' f ∧
        { t.control with engine := .idle } = { s.control with engine := .idle, fifo := rest }) ∧
      { t with lanes := s.lanes, control := s.control } = s)

/-- A drain release: the head leaves the queue, a GATED one is charged, the frame is rewritten from the state after
the charge and stands alone on the ready list, and the last entry takes the lane into its target (R33, R106, R107,
R117). It is made at the end of a frame, when the output of a DRAINING lane takes the last frame of the ready list;
DRAIN_RELEASE given alone makes the one that is due, and with none due it has no effect. That the release falls inside
the event that makes it due, so that no event leaves one due, is the model's: notes/assumptions/8.md. -/
def Obligations.DrainReleasesTheHead : Prop :=
  (∀ (l : LaneId) (e : QueueEntry) (rest : List QueueEntry) (f0 : Frame) (s s0 s1 s2 : State), s.rstN = true →
    (s.lane l).mode = .draining → (s.lane l).output = some f0 → (s.lane l).queue = e :: rest →
    (s1 = match e.kind with
      | .gated d => s0.charge l e.key d
      | .follower => s0) →
    (s2 = (s1.rewrite l e.frame).2.modLane l fun x => { x with
      ready := [(s1.rewrite l e.frame).1]
      mode := if rest ≠ [] then .draining else if x.target = .monitor then .monitor else .bypass
      target := if rest ≠ [] then x.target else .none }) →
    (∀ h : Frame, s.refclk = true → (s.lane l).response = none → (s.lane l).ready = [h] →
      (s0 = (s.sendFabric l f0).modLane l fun x => { x with output := some h, ready := [], queue := rest }) →
      exec (.outputFrameEnd l) s = .next s2) ∧
    ((s.lane l).ready = [] → (s0 = s.modLane l fun x => { x with queue := rest }) →
      exec (.drainRelease l) s = .next s2) ∧
    (∀ (d : ClassDecision) (r : FlowRecord), e.kind = .gated d → s0.findRecord l e.key = some r →
      ∃ r' : FlowRecord, s1.findRecord l e.key = some r' ∧ { r' with grant := r.grant } = { r with
        expected := min 16777215 (r.expected + d.cost), requestOpen := true, seen := true })) ∧
  (∀ (l : LaneId) (s : State), s.rstN = true →
    ((s.lane l).drainDue = false → exec (.drainRelease l) s = .next s) ∧
    ∃ (t : State) (released : List QueueEntry), exec (.drainRelease l) s = .next t ∧
      (s.lane l).queue = released ++ (t.lane l).queue ∧ s.Released l released t ∧
      (t.lane l).drainDue = false ∧ s.LaneEvent l t)

/-! ### The control engine -/

/-- The checks of a command come before its effect: too few parameter bytes give SHORT and a lane above 7 BAD-LANE,
with no results; and whatever the command, a status other than OK and CLAMPED changes nothing apart from the item
(R159). The last part gives every command's outcome by the checks in their order: SHORT, BAD-LANE, BAD-INDEX for a class
index above 63 or a start slot above 1023, BAD-VALUE for a value outside its codes, SHORT for an EVICT-FLOW key cut
off, then ABANDONED where the full results do not fit the space, each with no results and nothing changed; past these
checks the status is OK, CLAMPED or NOT-NOW (R159, R160, R170). -/
def Obligations.RefusedCommandChangesNothing : Prop :=
  (∀ (c : Instr) (code : Byte) (params : List Byte) (s : State) (space : Nat), c.command = some (code, params) →
    s.spaceFor code params = some space → params.length < leastParams code →
    ∃ t : State, exec c s = .next t ∧ t.lastItem = some ⟨code, 0x07, []⟩ ∧ t.apartEngine = s.apartEngine) ∧
  (∀ (c : Instr) (code : Byte) (params : List Byte) (s : State) (space : Nat), c.command = some (code, params) →
    s.spaceFor code params = some space → leastParams code ≤ params.length → namesLane code = true →
    8 ≤ byteAt params 0 → ¬ (code = 0x13 ∧ byteAt params 0 = 0x80) →
    ∃ t : State, exec c s = .next t ∧ t.lastItem = some ⟨code, 0x03, []⟩ ∧ t.apartEngine = s.apartEngine) ∧
  (∀ (c : Instr) (code : Byte) (params : List Byte) (s t : State) (space : Nat) (item : ResponseItem),
    c.command = some (code, params) → s.spaceFor code params = some space → exec c s = .next t →
    t.lastItem = some item → item.status ≠ 0x00 → item.status ≠ 0x01 → t.apartEngine = s.apartEngine) ∧
  (∀ (c : Instr) (code : Byte) (params : List Byte) (s : State) (space : Nat), c.command = some (code, params) →
    s.spaceFor code params = some space →
    (∀ status : Byte, refusedBy code params = some status →
      ∃ t : State, exec c s = .next t ∧ t.lastItem = some ⟨code, status, []⟩ ∧ t.apartEngine = s.apartEngine) ∧
    (refusedBy code params = none → space < fullResults code params →
      ∃ t : State, exec c s = .next t ∧ t.lastItem = some ⟨code, 0x08, []⟩ ∧ t.apartEngine = s.apartEngine) ∧
    (refusedBy code params = none → fullResults code params ≤ space →
      ∃ (t : State) (item : ResponseItem), exec c s = .next t ∧ t.lastItem = some item ∧ item.code = code ∧
        (item.status = 0x00 ∨ item.status = 0x01 ∨ item.status = 0x02)))

/-- The engine executes the commands of its frame in their order. The next one writes its item behind the items before
it; the walk then passes over commands of no defined code, UNKNOWN, and over abandoned ones, ABANDONED, up to the next
one to execute, and the items and the commands left always make up the count. With none left, the response of these items
is in HAND-OVER, to the lane of the frame. After an ABANDONED command, and after a CHIP-RESET of status OK, every later
one is ABANDONED (R157, R158, R160, R171). A response has the addresses, tags, EtherType, header, items, padding and
FCS of R161. Any other command, and any command while a response waits, has no effect (R172). That a command out of turn
changes nothing is the model's: notes/assumptions/2.md. -/
def Obligations.EngineExecutesTheFrameInOrder : Prop :=
  (∀ (c : Instr) (code : Byte) (params : List Byte) (s : State) (f : InService), c.command = some (code, params) →
    s.rstN = true → s.control.engine = .executing f → f.next = some (code, params) →
    ∃ (t : State) (item : ResponseItem) (status : Status) (w : InService) (more : List ResponseItem),
      exec c s = .next t ∧ t.lastItem = some item ∧ item.code = code ∧ item.status = status.code ∧
      w = InService.walk (f.remaining - 1) { f.decideNext status item.results with
        abandoned := decide (status = .abandoned) || (decide (code = 0x7F) && decide (status = .ok)) } ∧
      w.lane = f.lane ∧ w.frame = f.frame ∧ w.payload = f.payload ∧ w.items = f.items ++ item :: more ∧
      w.items.length + w.remaining = f.items.length + f.remaining ∧
      (∀ i ∈ more, i.results = [] ∧ (i.status = 0x06 ∨ i.status = 0x08)) ∧
      (status = .abandoned ∨ (code = 0x7F ∧ status = .ok) → w.remaining = 0 ∧ ∀ i ∈ more, i.status = 0x08) ∧
      (w.remaining = 0 →
        t.control.engine = .handOver f.lane (w.response t.control.etherType t.straps.addr)) ∧
      (0 < w.remaining → t.control.engine = .executing w ∧ w.next.isSome = true)) ∧
  (∀ (w : InService) (h : EtherHeader) (etherType : Nat) (addr : BitVec 4) (body : List Byte),
    etherHeader w.frame = some h →
    body = bytesAt w.frame 6 6 ++ [0x0A, 0x3C, 0x71, 0x2F, 0x50, BitVec.ofNat 8 addr.toNat] ++
      bytesAt w.frame 12 (h.netAt - 14) ++ beBytes 2 etherType ++
      [1, BitVec.ofNat 8 (byteAt w.payload 1) ||| 0x80] ++ bytesAt w.payload 2 2 ++ bytesAt w.payload 4 1 ++ [0] ++
      w.items.flatMap (fun i => [i.code, i.status] ++ beBytes 2 i.results.length ++ i.results) →
    w.response etherType addr = (body ++ List.replicate (60 - body.length) 0) ++
      fcsBytes (body ++ List.replicate (60 - body.length) 0)) ∧
  (∀ (c : Instr) (code : Byte) (params : List Byte) (s : State) (f : InService), c.command = some (code, params) →
    s.control.engine = .executing f → f.next ≠ some (code, params) → exec c s = .next s) ∧
  (∀ (c : Instr) (code : Byte) (params : List Byte) (s : State) (l : LaneId) (r : Frame),
    c.command = some (code, params) → s.control.engine = .handOver l r → exec c s = .next s)

/-- KEEPALIVE clears the keepalive count and, with a period set, makes the monitor RUNNING; nothing else changes
(R162). -/
def Obligations.KeepaliveClearsTheCount : Prop :=
  ∀ (params : List Byte) (s : State) (space : Nat), s.spaceFor 0x01 params = some space → 1 ≤ space →
    ∃ t : State, exec (.keepalive params) s = .next t ∧
      t.lastItem = some ⟨0x01, 0x00, [if s.keepalive.period = 0 then 0 else 1]⟩ ∧
      t.apartEngine = State.apartEngine { s with
        keepalive := ⟨s.keepalive.period, 0, if s.keepalive.period = 0 then .off else .running⟩ }

/-- The four readouts: READ-CHIP, READ-LANE, READ-CLASS and READ-FLOWS return their readouts with status OK (CLAMPED
for a READ-FLOWS count above 18) and change nothing (R53, R75, R163, R167, R169). And the readouts byte by byte: the
lane readout has 47, the chip readout 67, the flow record readout 80, the class readout 15 and the parameter block 18
bytes, each field most significant byte first at its offset, with the codes of Table 11-3 (R182 and the tables of
chapter Formats, Signals and Straps). The chip readout's layout is stated while the probe queue holds each lane once, and
the flow record's for addresses that fit their fields; every step keeps both (StepKeepsKeepaliveAndProbeLegal,
StepKeepsTheFlowTable). -/
def Obligations.ReadsReturnAndChangeNothing : Prop :=
  (∀ (params : List Byte) (s : State) (space : Nat), s.spaceFor 0x02 params = some space → 67 ≤ space →
    ∃ t : State, exec (.readChip params) s = .next t ∧ t.lastItem = some ⟨0x02, 0x00, s.chipReadout⟩ ∧
      t.apartEngine = s.apartEngine) ∧
  (∀ (params : List Byte) (s : State) (space : Nat) (l : LaneId), s.spaceFor 0x12 params = some space →
    47 ≤ space → 1 ≤ params.length → byteAt params 0 = l.val →
    ∃ t : State, exec (.readLane params) s = .next t ∧ t.lastItem = some ⟨0x12, 0x00, s.laneReadout l⟩ ∧
      t.apartEngine = s.apartEngine) ∧
  (∀ (params : List Byte) (s : State) (space : Nat) (i : Fin 64), s.spaceFor 0x21 params = some space →
    15 ≤ space → 1 ≤ params.length → byteAt params 0 = i.val →
    ∃ t : State, exec (.readClass params) s = .next t ∧
      t.lastItem = some ⟨0x21, 0x00, BitVec.ofNat 8 i.val :: (s.windows.get i).bytes⟩ ∧
      t.apartEngine = s.apartEngine) ∧
  (∀ (params : List Byte) (s : State) (space : Nat) (l : LaneId) (found : List FlowRecord) (r : Nat),
    s.spaceFor 0x30 params = some space → 4 ≤ space → 4 ≤ params.length → byteAt params 0 = l.val →
    fieldAt params 1 2 < 1024 →
    found = (s.records l).filter (fun x => fieldAt params 1 2 ≤ x.slot) →
    r = min (min 18 (byteAt params 3)) (min ((space - 4) / 80) found.length) →
    ∃ t : State, exec (.readFlows params) s = .next t ∧
      t.lastItem = some ⟨0x30, if 18 < byteAt params 3 then 0x01 else 0x00,
        BitVec.ofNat 8 r :: optBytes 2 ((found[r]?).map (·.slot)) ++ (found.take r).flatMap s.recordReadout⟩ ∧
      t.apartEngine = s.apartEngine) ∧
  (∀ (s : State) (l : LaneId), laidOut (s.laneReadout l) 47 (s.laneFields l)) ∧
  (∀ s : State, s.ProbeLegal → laidOut s.chipReadout 67 s.chipFields) ∧
  (∀ (s : State) (r : FlowRecord), r.key.stationAddr.length ≤ 16 → r.key.remoteAddr.length ≤ 16 →
    laidOut (s.recordReadout r) 80 (s.recordFields r)) ∧
  (∀ (i : Fin 64) (w : MatchWindow), laidOut (BitVec.ofNat 8 i.val :: w.bytes) 15 (classFields i.val w)) ∧
  (∀ p : LaneParams, laidOut p.bytes 18 (paramFields p)) ∧
  [Mode.bypass, .monitor, .active, .draining, .failsafe].map Mode.code = [0, 1, 2, 3, 4] ∧
  [DrainTarget.bypass, .monitor, .none].map DrainTarget.code = [0, 1, 0xFF] ∧
  [Regime.floor, .fallback].map Regime.code = [0, 1] ∧ [ProbeKind.short, .long].map ProbeKind.code = [0, 1] ∧
  [MonitorState.off, .running, .expired].map MonitorState.code = [0, 1, 2] ∧
  [Tier.first, .second, .third, .fallback].map Tier.code = [0, 1, 2, 3] ∧
  [MatchField.remotePort, .stationPort, .dscp, .remoteAddrLow16].map MatchField.code = [0, 1, 2, 3] ∧
  [Role.plain, .request, .exempt].map Role.code = [0, 1, 2] ∧
  RecordState.opened.code = 1 ∧ RecordState.closing.code = 2 ∧ ∀ h : Handshake, (RecordState.learning h).code = 0

/-- WRITE-CHIP stores the EtherType, the period and the enables together, with the keepalive monitor as Table 10-1
gives; an EtherType that may not be written gives BAD-VALUE (R164). -/
def Obligations.WriteChipStoresThreeValues : Prop :=
  ∀ (params : List Byte) (s : State) (space : Nat), s.spaceFor 0x03 params = some space → 6 ≤ params.length →
    ((fieldAt params 0 2 < 0x0600 ∨ fieldAt params 0 2 ∈ [0x0800, 0x86DD, 0x8100, 0x88A8]) →
      ∃ t : State, exec (.writeChip params) s = .next t ∧ t.lastItem = some ⟨0x03, 0x05, []⟩ ∧
        t.apartEngine = s.apartEngine) ∧
    (0x0600 ≤ fieldAt params 0 2 → fieldAt params 0 2 ∉ [0x0800, 0x86DD, 0x8100, 0x88A8] → 6 ≤ space →
      ∃ t : State, exec (.writeChip params) s = .next t ∧
        t.lastItem = some ⟨0x03, if fieldAt params 3 3 < 524288 then 0x00 else 0x01,
          beBytes 2 (fieldAt params 0 2) ++ beBytes 1 (fieldAt params 2 1) ++
            beBytes 3 (fieldAt params 3 3 % 524288)⟩ ∧
        t.apartEngine = State.apartEngine { s with
          control := { s.control with etherType := fieldAt params 0 2 }
          keepalive := ⟨fieldAt params 2 1, 0,
            if fieldAt params 2 1 = 0 then .off
            else if s.keepalive.state = .expired then .expired else .running⟩
          enables := BitVec.ofNat 19 (fieldAt params 3 3) })

/-- SET-TIMEBASE stages the pair, each value raised to 2 with status CLAMPED, and changes nothing else (R138). -/
def Obligations.SetTimebaseStagesThePair : Prop :=
  ∀ (params : List Byte) (s : State) (space p e : Nat), s.spaceFor 0x04 params = some space → 4 ≤ space →
    4 ≤ params.length → p = fieldAt params 0 2 → e = fieldAt params 2 2 →
    ∃ t : State, exec (.setTimebase params) s = .next t ∧
      t.lastItem = some ⟨0x04, if 2 ≤ p ∧ 2 ≤ e then 0x00 else 0x01,
        beBytes 2 (max 2 p) ++ beBytes 2 (max 2 e)⟩ ∧
      t.apartEngine = State.apartEngine { s with timer := { s.timer with staged := some (max 2 p, max 2 e) } }

/-- ACK-EVENTS clears the latched events its mask names, leaves the others, and leaves an OVERLOAD whose condition
holds latched; it returns the latch and changes nothing else (R165, R178). And in every state ALERT_N is driven low
exactly while RST_N is released and some event is both latched and enabled (R179), each event having its own bit of the
event fields (R182). -/
def Obligations.AckEventsClearsTheNamedLatches : Prop :=
  (∀ (params : List Byte) (s : State) (space : Nat), s.spaceFor 0x05 params = some space → 3 ≤ space →
    3 ≤ params.length → s.OverloadsLatched →
    ∃ t : State, exec (.ackEvents params) s = .next t ∧
      t.lastItem = some ⟨0x05, 0x00, beBytes 3 t.latch.toNat⟩ ∧
      (∀ e : Event, t.latched e = true ↔
        s.latched e = true ∧ ((fieldAt params 0 3).testBit e.bit = false ∨
          ∃ l : LaneId, e = .overload l ∧ s.overloaded l = true)) ∧
      t.apartEngine = State.apartEngine { s with latch := t.latch }) ∧
  (∀ s : State, s.alertLow = true ↔ s.rstN = true ∧ ∃ e : Event, s.latched e = true ∧ s.enabled e = true) ∧
  Event.wdog.bit = 0 ∧ (∀ l : LaneId, (Event.overload l).bit = 1 + l.val ∧ (Event.gateFlush l).bit = 9 + l.val) ∧
  Event.probe.bit = 17 ∧ Event.ctlDrop.bit = 18

/-- SET-LANE-MODE: the truth table of R28 with checks 4 and 5 of R27. A refused request returns the mode and the target
and changes nothing; a request for the mode held changes nothing; every other one leaves the lane in the mode the table
gives, and a lane that holds entries drains toward it. Entry to ACTIVE sets the interval count to 0 and places a LONG
probe request by R143. At the return from DRAINING the queue is re-evaluated step by step, nothing forced: each entry that
leaves was a FOLLOWER or passed admission, a GATED head that fails stays with every entry behind it, and the queue is left
empty or with such a head (R30, R32, R35, R109, R118). Where the lane was tracking, what leaves the queue leaves as a release does;
at MONITOR to BYPASS and to ACTIVE, FAILSAFE to BYPASS, ACTIVE to MONITOR and to BYPASS with nothing held or to DRAINING
with frames ready, and a change of target, the lane's records, budget, counters and the rest stand as they were (R22, R25,
R26, R28, R30, R31). A lane that leaves MONITOR and ACTIVE loses its queued probe request, the others keeping their order;
a probe WAITING or MEASURING for it is abandoned, and the engine granted to the next head or IDLE; no PROBE is latched
and no PROBE_UNSAT counted; other mode changes leave the probe (R144, R146, R151). What an engine that stays IDLE keeps of
its counts and of valid is the model's: notes/assumptions/14.md. -/
def Obligations.SetLaneModeFollowsTheTable : Prop :=
  ∀ (params : List Byte) (s : State) (space : Nat) (l : LaneId) (req : Mode), s.spaceFor 0x10 params = some space →
    2 ≤ space → 2 ≤ params.length → byteAt params 0 = l.val →
    (byteAt params 1 = 0 ∧ req = .bypass ∨ byteAt params 1 = 1 ∧ req = .monitor ∨
      byteAt params 1 = 2 ∧ req = .active) →
    ((s.keepalive.state = .expired ∧ req ≠ .bypass ∨
        req = .active ∧ ((s.lane l).mode = .bypass ∨ (s.lane l).mode = .failsafe ∨
          (s.lane l).mode = .monitor ∧ (s.lane l).nMax = 0)) →
      ∃ t : State, exec (.setLaneMode params) s = .next t ∧
        t.lastItem = some ⟨0x10, 0x02, [(s.lane l).mode.code, (s.lane l).target.code]⟩ ∧
        t.apartEngine = s.apartEngine) ∧
    ((s.keepalive.state = .expired → req = .bypass) → (s.lane l).mode = req →
      ∃ t : State, exec (.setLaneMode params) s = .next t ∧
        t.lastItem = some ⟨0x10, 0x00, [(s.lane l).mode.code, (s.lane l).target.code]⟩ ∧
        t.apartEngine = s.apartEngine) ∧
    ((s.keepalive.state = .expired → req = .bypass) → (s.lane l).mode ≠ req →
      (req = .active → (s.lane l).mode = .draining ∨ (s.lane l).mode = .monitor ∧ 1 ≤ (s.lane l).nMax) →
      ∃ t : State, exec (.setLaneMode params) s = .next t ∧
        t.lastItem = some ⟨0x10, 0x00, [(t.lane l).mode.code, (t.lane l).target.code]⟩ ∧
        ((s.lane l).mode = .draining → req ≠ .active → (t.lane l).mode = .draining ∧
          (t.lane l).target = (if req = .monitor then .monitor else .bypass) ∧
          (t.lane l).queue = (s.lane l).queue) ∧
        ((s.lane l).mode = .active → (s.lane l).queue ≠ [] →
          ((t.lane l).mode = .draining ∧ (t.lane l).target = (if req = .monitor then .monitor else .bypass) ∧
              (t.lane l).queue ≠ []) ∨
            ((t.lane l).mode = req ∧ (t.lane l).target = .none ∧ (t.lane l).queue = [])) ∧
        ((s.lane l).mode = .active → (s.lane l).queue ≠ [] → (s.lane l).ready ≠ [] →
          (t.lane l).mode = .draining ∧ (t.lane l).queue = (s.lane l).queue) ∧
        ((s.lane l).mode ≠ .active ∧ (s.lane l).mode ≠ .draining ∨ (s.lane l).mode = .active ∧ (s.lane l).queue = [] ∨
            req = .active →
          (t.lane l).mode = req ∧ (t.lane l).target = .none) ∧
        (((s.lane l).mode = .bypass ∨ (s.lane l).mode = .failsafe) → req = .monitor →
          t.records l = [] ∧ (t.lane l).rMeas = none ∧ (t.lane l).intervalCount = 0 ∧
          (t.lane l).rEff = (s.lane l).params.rNominal ∧ (t.lane l).regime = .floor ∧
          (t.lane l).budget = min 16777215 ((s.lane l).params.bufferShare +
            (s.lane l).params.rNominal * (s.lane l).params.targetDelay / 16)) ∧
        ((s.lane l).mode.tracking = true → ∃ released : List QueueEntry,
          (s.lane l).queue = released ++ (t.lane l).queue ∧ s.Released l released t) ∧
        ((s.lane l).mode = .monitor ∨ ((s.lane l).mode = .failsafe ∧ req = .bypass) ∨
            ((s.lane l).mode = .active ∧ ((s.lane l).queue = [] ∨ (s.lane l).ready ≠ [])) ∨
            ((s.lane l).mode = .draining ∧ req ≠ .active) →
          t.records l = s.records l ∧ t.latch = s.latch ∧
          t.lane l = { s.lane l with
            mode := (t.lane l).mode
            target := (t.lane l).target
            intervalCount := if req = .active then 0 else (s.lane l).intervalCount }) ∧
        (req = .active → (t.lane l).intervalCount = 0 ∧
          ((s.lane l).mode = .draining → ∀ (e : QueueEntry) (rest : List QueueEntry), (t.lane l).queue = e :: rest →
            ∃ d : ClassDecision, e.kind = .gated d ∧ t.passesAdmission l e.key d.cost = false) ∧
          ((s.lane l).mode = .draining → ∃ (v : State) (released : List QueueEntry),
            (s.modLane l fun x => { x with mode := .active, target := .none }).Reevaluated false l released v ∧
              t.lane l = { v.lane l with intervalCount := 0 } ∧ t.pool = v.pool ∧ t.latch = v.latch) ∧
          (∀ (e : QueueEntry) (rest : List QueueEntry) (d : ClassDecision), (s.lane l).mode = .draining →
            (s.lane l).queue = e :: rest → e.kind = .gated d → s.passesAdmission l e.key d.cost = false →
            t.lane l = { s.lane l with mode := .active, target := .none, intervalCount := 0 } ∧ t.pool = s.pool) ∧
          (l ∈ s.probe.queue.map (·.lane) → t.probe = { s.probe with
            queue := s.probe.queue.map fun r => if r.lane = l then { r with kind := .long } else r }) ∧
          (l ∉ s.probe.queue.map (·.lane) → s.probe.engine ≠ .idle →
            t.probe = { s.probe with queue := s.probe.queue ++ [⟨l, .long⟩] }) ∧
          (s.probe.queue = [] → s.probe.engine = .idle → t.probe = ⟨[], .waiting ⟨l, .long⟩, 0, 0, true⟩)) ∧
        ((s.lane l).mode = .monitor ∧ req = .bypass ∨
            (s.lane l).mode = .active ∧ (req = .bypass ∨ (s.lane l).queue ≠ []) →
          ((∀ r ∈ s.probe.engine.serving.toList, r.lane ≠ l) →
            t.probe = { s.probe with queue := s.probe.queue.filter fun r => r.lane ≠ l }) ∧
          ((∃ r ∈ s.probe.engine.serving.toList, r.lane = l) → s.ProbeLegal →
            t.probe = match s.probe.queue.filter fun r => r.lane ≠ l with
              | [] => ⟨[], .idle, 0, 0, true⟩
              | r :: rest => ⟨rest, .waiting r, 0, 0, true⟩)) ∧
        (((s.lane l).mode.served = false ∨ ((s.lane l).mode = .active ∧ (s.lane l).queue = [] ∧ req = .monitor)) →
          req ≠ .active → t.probe = s.probe) ∧
        t.latched .probe = s.latched .probe ∧
        (t.lane l).counters.probeUnsat = (s.lane l).counters.probeUnsat ∧
        (∀ l' : LaneId, l' ≠ l → t.lane l' = s.lane l' ∧ t.records l' = s.records l') ∧
        State.apartEngine { t with lanes := s.lanes, pool := s.pool, latch := s.latch, probe := s.probe } =
          s.apartEngine)

/-- WRITE-LANE-PARAMS: refused NOT-NOW in ACTIVE and DRAINING; else the eleven values are stored, each clamped to its
range and the quota raised to the record count, with CLAMPED exactly when a value changed; MONITOR recomputes R_eff, B,
n_max and the regime from them, BYPASS and FAILSAFE store alone (R79 to R83). -/
def Obligations.WriteLaneParamsClampsAndStores : Prop :=
  ∀ (params : List Byte) (s : State) (space : Nat) (l : LaneId) (w p : LaneParams),
    s.spaceFor 0x11 params = some space → 18 ≤ space → 19 ≤ params.length → byteAt params 0 = l.val →
    w = ⟨fieldAt params 1 3, fieldAt params 4 3, fieldAt params 7 2, fieldAt params 9 2, fieldAt params 11 1,
      fieldAt params 12 1, fieldAt params 13 1, fieldAt params 14 1, fieldAt params 15 2, fieldAt params 17 1,
      fieldAt params 18 1⟩ →
    p = ⟨w.bufferShare, max 1 w.rNominal, min 4095 w.targetDelay, max 64 w.floorGrant,
      max 8 (min 32 w.overcommit), max 1 w.holdLimit, max 1 w.ageLimit, max 1 w.timeout,
      max (s.recordCount l) (max 1 (min 1024 w.quota)), max 1 (min 15 w.defaultWeight), w.probeInterval⟩ →
    ((s.lane l).mode.enforcing = true →
      ∃ t : State, exec (.writeLaneParams params) s = .next t ∧ t.lastItem = some ⟨0x11, 0x02, []⟩ ∧
        t.apartEngine = s.apartEngine) ∧
    ((s.lane l).mode.tracking = false →
      ∃ t : State, exec (.writeLaneParams params) s = .next t ∧
        t.lastItem = some ⟨0x11, if p = w then 0x00 else 0x01, p.bytes⟩ ∧
        t.apartEngine = (s.modLane l fun x => { x with params := p }).apartEngine) ∧
    ((s.lane l).mode = .monitor →
      ∃ t : State, exec (.writeLaneParams params) s = .next t ∧
        t.lastItem = some ⟨0x11, if p = w then 0x00 else 0x01, p.bytes⟩ ∧
        (∃ rEff b : Nat,
          rEff = ((s.lane l).rMeas.map (min p.rNominal)).getD p.rNominal ∧
          b = min 16777215 (p.bufferShare + rEff * p.targetDelay / 16) ∧
          t.lane l = { s.lane l with
            params := p
            rEff := rEff
            budget := b
            nMax := min p.quota (b / p.floorGrant)
            regime := if s.n l * p.floorGrant ≤ b then .floor else .fallback }) ∧
        State.LaneEvent l s.apartEngine t.apartEngine)

/-- READ-COUNTERS returns a bank, and with its clear flag zeroes that bank and no other (R168, R180). -/
def Obligations.ReadCountersReturnsAndClears : Prop :=
  (∀ (params : List Byte) (s : State) (space : Nat) (l : LaneId), s.spaceFor 0x13 params = some space →
    49 ≤ space → 2 ≤ params.length → byteAt params 0 = l.val →
    ∃ t : State, exec (.readCounters params) s = .next t ∧
      t.lastItem = some ⟨0x13, 0x00, BitVec.ofNat 8 l.val ::
        ([(s.lane l).counters.opaqueFrames, (s.lane l).counters.badFcs, (s.lane l).counters.oversize,
          (s.lane l).counters.stationCtl, (s.lane l).counters.untracked, (s.lane l).counters.unscaled,
          (s.lane l).counters.lowered, (s.lane l).counters.gated, (s.lane l).counters.followed,
          (s.lane l).counters.forced, (s.lane l).counters.flushes, (s.lane l).counters.probeUnsat].flatMap
            (beBytes 4))⟩ ∧
      (byteAt params 1 = 0 → t.apartEngine = s.apartEngine) ∧
      (byteAt params 1 ≠ 0 → t.apartEngine = (s.modLane l fun x =>
        { x with counters := ⟨0, 0, 0, 0, 0, 0, 0, 0, 0, 0, 0, 0⟩ }).apartEngine)) ∧
  (∀ (params : List Byte) (s : State) (space : Nat), s.spaceFor 0x13 params = some space → 13 ≤ space →
    2 ≤ params.length → byteAt params 0 = 0x80 →
    ∃ t : State, exec (.readCounters params) s = .next t ∧
      t.lastItem = some ⟨0x13, 0x00, 0x80 ::
        ([s.control.accepted, s.control.malformed, s.control.fifoFull].flatMap (beBytes 4))⟩ ∧
      (byteAt params 1 = 0 → t.apartEngine = s.apartEngine) ∧
      (byteAt params 1 ≠ 0 → t.apartEngine = State.apartEngine { s with
        control := { s.control with accepted := 0, malformed := 0, fifoFull := 0 } }))

/-- FLUSH-FLOWS removes every record of its lane and no other and returns their number; MONITOR recomputes where active
records went (R68, R88), BYPASS and FAILSAFE hand nothing on; in ACTIVE and DRAINING it is refused (R74). -/
def Obligations.FlushFlowsRemovesTheLanesRecords : Prop :=
  ∀ (params : List Byte) (s : State) (space : Nat) (l : LaneId), s.spaceFor 0x14 params = some space →
    2 ≤ space → 1 ≤ params.length → byteAt params 0 = l.val →
    ((s.lane l).mode.enforcing = true →
      ∃ t : State, exec (.flushFlows params) s = .next t ∧ t.lastItem = some ⟨0x14, 0x02, []⟩ ∧
        t.apartEngine = s.apartEngine) ∧
    ((s.lane l).mode.enforcing = false →
      ∃ t : State, exec (.flushFlows params) s = .next t ∧
        t.lastItem = some ⟨0x14, 0x00, beBytes 2 (s.recordCount l)⟩ ∧ t.records l = [] ∧ t.n l = 0 ∧ t.w l = 0 ∧
        t.c l = 0 ∧ (t.lane l).queue = (s.lane l).queue ∧ (t.lane l).mode = (s.lane l).mode ∧
        ((s.lane l).mode ≠ .monitor → t.apartEngine =
          State.apartEngine { s with pool := s.pool.filter fun r => r.lane ≠ l }) ∧
        ((s.lane l).mode = .monitor → ∃ v : State,
          s.HandedOn l { s with pool := s.pool.filter fun r => r.lane ≠ l } [] v ∧ t.apartEngine = v.apartEngine) ∧
        State.LaneEvent l s.apartEngine t.apartEngine)

/-- RELEASE-LANE releases the whole queue of an ACTIVE or DRAINING lane behind every earlier frame, in queue order,
each frame as it was but for its window, checksum and FCS, and each record charged for its GATED entries and for nothing
else, without FORCED, FLUSHES and GATEFLUSH; a DRAINING lane enters its target, and other modes have nothing to release
(R16, R33, R106, R107, R116). -/
def Obligations.ReleaseLaneEmptiesTheQueue : Prop :=
  ∀ (params : List Byte) (s : State) (space : Nat) (l : LaneId), s.spaceFor 0x15 params = some space →
    2 ≤ space → 1 ≤ params.length → byteAt params 0 = l.val →
    ((s.lane l).mode.enforcing = false →
      ∃ t : State, exec (.releaseLane params) s = .next t ∧
        t.lastItem = some ⟨0x15, 0x00, [0, (s.lane l).mode.code]⟩ ∧ t.apartEngine = s.apartEngine) ∧
    ((s.lane l).mode.enforcing = true →
      ∃ t : State, exec (.releaseLane params) s = .next t ∧
        t.lastItem = some ⟨0x15, 0x00,
          [BitVec.ofNat 8 (s.lane l).queue.length, (t.lane l).mode.code]⟩ ∧
        (t.lane l).queue = [] ∧ s.Released l (s.lane l).queue t ∧
        (t.framesOf l).length = (s.framesOf l).length ∧
        (t.lane l).counters.forced = (s.lane l).counters.forced ∧
        (t.lane l).counters.flushes = (s.lane l).counters.flushes ∧
        t.latched (.gateFlush l) = s.latched (.gateFlush l) ∧
        ((s.lane l).mode = .active → (t.lane l).mode = .active) ∧
        ((s.lane l).mode = .draining → (t.lane l).target = .none ∧
          (t.lane l).mode = (if (s.lane l).target = .monitor then .monitor else .bypass)) ∧
        State.LaneEvent l s.apartEngine t.apartEngine)

/-- START-PROBE on a lane in MONITOR or ACTIVE merges with the lane's queued request, or appends one, which an IDLE
engine with nothing queued is granted at once; in the other modes it is refused (R143, R145, R146). -/
def Obligations.StartProbeQueuesOrMerges : Prop :=
  ∀ (params : List Byte) (s : State) (space : Nat) (l : LaneId) (k : ProbeKind),
    s.spaceFor 0x16 params = some space → 1 ≤ space → 2 ≤ params.length → byteAt params 0 = l.val →
    (byteAt params 1 = 0 ∧ k = .short ∨ byteAt params 1 = 1 ∧ k = .long) →
    ((s.lane l).mode.served = false →
      ∃ t : State, exec (.startProbe params) s = .next t ∧ t.lastItem = some ⟨0x16, 0x02, []⟩ ∧
        t.apartEngine = s.apartEngine) ∧
    ((s.lane l).mode.served = true → l ∈ s.probe.queue.map (·.lane) →
      ∃ t : State, exec (.startProbe params) s = .next t ∧ t.lastItem = some ⟨0x16, 0x00, [1]⟩ ∧
        t.apartEngine = State.apartEngine { s with
          probe := { s.probe with
            queue := s.probe.queue.map fun r =>
              if r.lane = l ∧ k = .long then { r with kind := .long } else r } }) ∧
    ((s.lane l).mode.served = true → l ∉ s.probe.queue.map (·.lane) → s.probe.engine ≠ .idle →
      ∃ t : State, exec (.startProbe params) s = .next t ∧ t.lastItem = some ⟨0x16, 0x00, [0]⟩ ∧
        t.apartEngine = State.apartEngine { s with
          probe := { s.probe with queue := s.probe.queue ++ [⟨l, k⟩] } }) ∧
    ((s.lane l).mode.served = true → s.probe.queue = [] → s.probe.engine = .idle →
      ∃ t : State, exec (.startProbe params) s = .next t ∧ t.lastItem = some ⟨0x16, 0x00, [0]⟩ ∧
        t.apartEngine = State.apartEngine { s with probe := ⟨[], .waiting ⟨l, k⟩, 0, 0, true⟩ })

/-- WRITE-CLASS replaces the whole entry: k and the weight clamped with status CLAMPED, the base stored with its low k
bits cleared, and no other entry and nothing else changed (R50 to R52). And what the table of entries decides: a lookup
selects, of the entries that take part and cover the segment's value, the one of the first tier, FIRST, SECOND, THIRD,
then FALLBACK, and in it the one of lowest index; its decision is that index, the entry's role, its cost where the role
is REQUEST, and its weight, and with no such entry NONE, PLAIN, 0 and the lane's default weight (R38 to R42). -/
def Obligations.WriteClassReplacesTheEntry : Prop :=
  (∀ (s : State) (l : LaneId) (g : Segment),
    (∀ i : Fin 64, (s.windows.get i).covers l g →
      (∀ j : Fin 64, (s.windows.get j).covers l g →
        (s.windows.get i).tier.code.toNat < (s.windows.get j).tier.code.toNat ∨
          ((s.windows.get i).tier = (s.windows.get j).tier ∧ i ≤ j)) →
      s.lookup l g = ⟨some i.val, (s.windows.get i).role,
        if (s.windows.get i).role = .request then (s.windows.get i).cost else 0, (s.windows.get i).weight⟩) ∧
    ((∀ i : Fin 64, ¬ (s.windows.get i).covers l g) →
      s.lookup l g = ⟨none, .plain, 0, (s.lane l).params.defaultWeight⟩)) ∧
  ∀ (params : List Byte) (s : State) (space : Nat) (i : Fin 64) (en : Bool) (ti : Tier) (fi : MatchField) (ro : Role),
    s.spaceFor 0x20 params = some space → 15 ≤ space → 15 ≤ params.length → byteAt params 0 = i.val →
    boolByte en = BitVec.ofNat 8 (byteAt params 1) → ti.code = BitVec.ofNat 8 (byteAt params 2) →
    fi.code = BitVec.ofNat 8 (byteAt params 3) → ro.code = BitVec.ofNat 8 (byteAt params 10) →
    ∃ (t : State) (w : MatchWindow), exec (.writeClass params) s = .next t ∧
      w.enable = en ∧ w.tier = ti ∧ w.field = fi ∧ w.role = ro ∧ w.k = min 16 (byteAt params 6) ∧
      w.base.toNat = fieldAt params 4 2 - fieldAt params 4 2 % 2 ^ w.k ∧ w.dc.toNat = fieldAt params 7 2 ∧
      w.lanes.toNat = byteAt params 9 ∧ w.cost = fieldAt params 11 3 ∧
      w.weight = max 1 (min 15 (byteAt params 14)) ∧
      t.lastItem = some ⟨0x20,
        if byteAt params 6 ≤ 16 ∧ 1 ≤ byteAt params 14 ∧ byteAt params 14 ≤ 15 then 0x00 else 0x01,
        BitVec.ofNat 8 i.val :: w.bytes⟩ ∧
      t.apartEngine = State.apartEngine { s with windows := s.windows.set i.val w i.isLt }

/-- EVICT-FLOW removes the one record of its lane and key and returns its slot, or finds none and changes nothing; on a
tracking lane, with entries held or none, the removal is handed on (R68; the recompute first, the model's:
notes/assumptions/20.md), on a lane in BYPASS or FAILSAFE nothing is (R73, R170). -/
def Obligations.EvictFlowRemovesTheRecord : Prop :=
  ∀ (params : List Byte) (s : State) (space : Nat) (l : LaneId) (v : IpVersion) (key : FlowKey),
    s.spaceFor 0x31 params = some space → 3 ≤ space → byteAt params 0 = l.val →
    (byteAt params 1 = 4 ∧ v = .v4 ∧ 14 ≤ params.length ∧
        key = ⟨.v4, bytesAt params 2 4, fieldAt params 6 2, bytesAt params 8 4, fieldAt params 12 2⟩ ∨
      byteAt params 1 = 6 ∧ v = .v6 ∧ 38 ≤ params.length ∧
        key = ⟨.v6, bytesAt params 2 16, fieldAt params 18 2, bytesAt params 20 16, fieldAt params 36 2⟩) →
    (s.findRecord l key = none →
      ∃ t : State, exec (.evictFlow params) s = .next t ∧ t.lastItem = some ⟨0x31, 0x00, [0, 0, 0]⟩ ∧
        t.apartEngine = s.apartEngine) ∧
    (∀ r : FlowRecord, s.findRecord l key = some r →
      ∃ t : State, exec (.evictFlow params) s = .next t ∧
        t.lastItem = some ⟨0x31, 0x00, 1 :: beBytes 2 r.slot⟩ ∧
        (s.quiet l ∨ (s.lane l).mode.tracking = false →
          t.pool.map FlowRecord.apartGrant =
            (s.pool.filter fun x => ¬ (x.lane = l ∧ x.key = key)).map FlowRecord.apartGrant) ∧
        ((s.lane l).mode.tracking = true → ∃ (v : State) (released : List QueueEntry),
          s.HandedOn l { s with pool := s.pool.filter fun x => ¬ (x.lane = l ∧ x.key = key) } released v ∧
            t.apartEngine = v.apartEngine ∧ (s.lane l).queue = released ++ (t.lane l).queue) ∧
        ((s.lane l).mode.tracking = false → t.apartEngine =
          State.apartEngine { s with pool := s.pool.filter fun x => ¬ (x.lane = l ∧ x.key = key) }) ∧
        State.LaneEvent l s.apartEngine t.apartEngine)

/-- CHIP-RESET is refused while a lane is tracking; else every block takes its power-on values but the straps, the
arbiters and the frame in service (R18, R171). -/
def Obligations.ChipResetRestoresEveryBlock : Prop :=
  ∀ (params : List Byte) (s : State) (space : Nat), s.spaceFor 0x7F params = some space →
    ((∃ l : LaneId, (s.lane l).mode.tracking = true) →
      ∃ t : State, exec (.chipReset params) s = .next t ∧ t.lastItem = some ⟨0x7F, 0x02, []⟩ ∧
        t.apartEngine = s.apartEngine) ∧
    ((∀ l : LaneId, (s.lane l).mode.tracking = false) →
      ∃ t : State, exec (.chipReset params) s = .next t ∧ t.lastItem = some ⟨0x7F, 0x00, []⟩ ∧
        State.AtPowerOn { t with
          lanes := (forEachLane (fun l => (State.modLane · l fun x =>
            { x with output := none, ready := [], response := none })) t).lanes
          control := { t.control with engine := .idle } } ∧
        (∀ l : LaneId, (t.lane l).output = (s.lane l).output ∧ (t.lane l).ready = (s.lane l).ready ∧
          (t.lane l).response = (s.lane l).response) ∧
        t.straps = s.straps ∧ t.stationSent = s.stationSent ∧ t.fabricSent = s.fabricSent)

/-! ### Time -/

/-- The timer's own event: both counts return to 0, the epoch number rises modulo 65536, and a staged pair takes
effect: R_meas becomes ABSENT on every lane, every tracking lane is recomputed with R_nominal, a rise of its B lets an
ACTIVE lane's queue be re-evaluated (R91, R109), other lanes keep their budgets, and a probe WAITING or MEASURING is abandoned: its counts are discarded, no PROBE is latched and no PROBE_UNSAT
counted, and the engine is granted to the head of the queue, or IDLE with the queue empty (R137, R139, R94, R146, R151).
Without a staged pair nothing else changes. What an engine that stays IDLE keeps of its counts and of valid is the
model's: notes/assumptions/14.md. -/
def Obligations.EpochTickAdvancesTheTimer : Prop :=
  (∀ s : State, s.clocked = true → s.timer.staged = none →
    exec .epochTick s = .next { s with
      timer := { s.timer with
        prescaleCount := 0
        epochCount := 0
        epochNumber := (s.timer.epochNumber + 1) % 65536 } }) ∧
  (∀ (s : State) (p e : Nat), s.clocked = true → s.timer.staged = some (p, e) →
    ∃ t : State, exec .epochTick s = .next t ∧
      t.timer = ⟨p, e, none, 0, 0, (s.timer.epochNumber + 1) % 65536⟩ ∧
      (∀ l : LaneId, (t.lane l).rMeas = none ∧ (t.lane l).mode = (s.lane l).mode ∧
        (t.lane l).params = (s.lane l).params) ∧
      (∀ l : LaneId, (s.lane l).mode.tracking = true → (t.lane l).rEff = (s.lane l).params.rNominal ∧
        (t.lane l).budget = min 16777215 ((s.lane l).params.bufferShare +
          (s.lane l).params.rNominal * (s.lane l).params.targetDelay / 16)) ∧
      (∃ s0 : State, (∀ l : LaneId, s0.lane l = { s.lane l with rMeas := none }) ∧
        { s0 with lanes := s.lanes, timer := s.timer } = s ∧ s0.timer = t.timer ∧
        ∀ l : LaneId, (s.lane l).mode.tracking = true → ∃ (u v : State) (released : List QueueEntry),
          State.LaneTurn l s0 u v { t with probe := s.probe } ∧
          (u.recompute l).Reconsidered l ((s.lane l).budget < ((u.recompute l).lane l).budget) released v) ∧
      (∀ l : LaneId, (s.lane l).mode.tracking = false →
        t.lane l = { s.lane l with rMeas := none } ∧ t.records l = s.records l) ∧
      (∀ r : ProbeRequest, t.probe.engine ≠ .measuring r) ∧
      (s.probe.engine = .idle → t.probe = s.probe) ∧
      (s.probe.engine ≠ .idle → s.ProbeLegal → t.probe = match s.probe.queue with
        | [] => ⟨[], .idle, 0, 0, true⟩
        | r :: rest => ⟨rest, .waiting r, 0, 0, true⟩) ∧
      t.latched .probe = s.latched .probe ∧
      (∀ l : LaneId, (t.lane l).counters.probeUnsat = (s.lane l).counters.probeUnsat) ∧
      t.windows = s.windows ∧ t.keepalive = s.keepalive ∧ t.control = s.control)

/-- The flow table's tick ages every record of every tracking lane by the five steps of R69, and no record of another
lane, which stands as it was. On each tracking lane, with entries held or none, the tick is one event: after every record
has aged it is handed on once, and an ACTIVE lane's queue is re-evaluated where C or n fell or B rose (R68, R70, R91,
R109; the recompute first, the model's: notes/assumptions/20.md). Where no ACTIVE lane holds an entry nothing else changes
in a record but its grant. -/
def Obligations.FlowTableTickAgesTrackedRecords : Prop :=
  ∀ s : State, s.clocked = true → ∃ t : State, exec .flowTableTick s = .next t ∧
    (∀ l : LaneId, (s.lane l).mode.tracking = true → ∃ (u v : State) (released : List QueueEntry),
      s.LaneTurn l u v t ∧ (s.lane l).queue = released ++ (t.lane l).queue ∧
      u.HandedOn l { u with
        pool := u.pool.filterMap fun r =>
          if r.lane = l then
            let idle := if r.seen then 0 else if s.holds l r.key then r.idleTicks else min 255 (r.idleTicks + 1)
            if (s.lane l).params.ageLimit ≤ idle ∨ r.state = .closing then none
            else some { r with
              dataLastEpoch := decide (0 < r.epochBytes)
              epochBytes := 0
              idleTicks := idle
              seen := false
              expected := if (s.lane l).params.timeout ≤ idle then 0 else r.expected
              requestOpen := if (s.lane l).params.timeout ≤ idle then false else r.requestOpen }
          else some r } released v) ∧
    (∀ l : LaneId, (s.lane l).mode.tracking = false → t.lane l = s.lane l ∧ t.records l = s.records l) ∧
    { t with lanes := s.lanes, pool := s.pool, latch := s.latch } = s ∧
    ((∀ l : LaneId, (s.lane l).mode = .active → (s.lane l).queue = []) →
      t.pool.map FlowRecord.apartGrant = (s.pool.filterMap fun r =>
        if (s.lane r.lane).mode.tracking = true then
          let idle := if r.seen then 0 else if s.holds r.lane r.key then r.idleTicks else min 255 (r.idleTicks + 1)
          if (s.lane r.lane).params.ageLimit ≤ idle ∨ r.state = .closing then none
          else some { r with
            grant := 0
            dataLastEpoch := decide (0 < r.epochBytes)
            epochBytes := 0
            idleTicks := idle
            seen := false
            expected := if (s.lane r.lane).params.timeout ≤ idle then 0 else r.expected
            requestOpen := if (s.lane r.lane).params.timeout ≤ idle then false else r.requestOpen }
        else some r.apartGrant) ∧
      (∀ l : LaneId, (t.lane l).mode = (s.lane l).mode ∧ (t.lane l).queue = (s.lane l).queue ∧
        (t.lane l).params = (s.lane l).params ∧ (t.lane l).counters = (s.lane l).counters) ∧
      t.timer = s.timer ∧ t.probe = s.probe ∧ t.keepalive = s.keepalive)

/-- The two limits of R69 on the silent record of a slot, on a lane with entries held or none: idle ticks at X or more
clear expected and request open, and idle ticks at A or more, or the state CLOSING, free the slot; no other record changes,
and the event is handed on, with the re-evaluation it brings on an ACTIVE lane (R68; the recompute first, the model's:
notes/assumptions/20.md). The command's own form, one record at a time, is the model's: notes/assumptions/7.md. -/
def Obligations.SilentRecordTimesOutOrAgesOut : Prop :=
  (∀ (slot : SlotId) (s : State) (r : FlowRecord), s.clocked = true → s.PoolCanonical →
    s.silentRecord slot.val = some r → (s.lane r.lane).params.timeout ≤ r.idleTicks →
    ∃ (t : State) (released : List QueueEntry), exec (.expectationTimeout slot) s = .next t ∧
      (s.lane r.lane).queue = released ++ (t.lane r.lane).queue ∧ s.LaneEvent r.lane t ∧
      (r.state ≠ .closing → r.idleTicks < (s.lane r.lane).params.ageLimit →
        s.HandedOn r.lane { s with
          pool := s.pool.map fun x =>
            if x.slot = slot.val then { x with expected := 0, requestOpen := false } else x } released t ∧
        (s.quiet r.lane → t.pool.map FlowRecord.apartGrant = s.pool.map (fun x => FlowRecord.apartGrant
          (if x.slot = slot.val then { x with expected := 0, requestOpen := false } else x)))) ∧
      (r.state = .closing ∨ (s.lane r.lane).params.ageLimit ≤ r.idleTicks →
        s.HandedOn r.lane { s with pool := s.pool.filter fun x => x.slot ≠ slot.val } released t)) ∧
  (∀ (slot : SlotId) (s : State) (r : FlowRecord), s.clocked = true → s.PoolCanonical →
    s.silentRecord slot.val = some r → (s.lane r.lane).params.ageLimit ≤ r.idleTicks →
    ∃ (t : State) (released : List QueueEntry), exec (.ageLimit slot) s = .next t ∧
      (s.lane r.lane).queue = released ++ (t.lane r.lane).queue ∧ s.LaneEvent r.lane t ∧
      s.HandedOn r.lane { s with pool := s.pool.filter fun x => x.slot ≠ slot.val } released t ∧
      (s.quiet r.lane → t.pool.map FlowRecord.apartGrant =
        (s.pool.filter fun x => x.slot ≠ slot.val).map FlowRecord.apartGrant))

/-- The gate's tick. Every entry held by an ACTIVE or DRAINING lane ages by one tick, a DRAINING lane changes in nothing
else, and lanes in the other modes are untouched. An ACTIVE lane's queue, so aged, is then re-evaluated step by step: an
entry leaves only as a FOLLOWER, by admission, or forced at H, each accounted and rewritten, in queue order, and FORCED is
counted once for each GATED entry that leaves with held ticks of H or more and for no other. A head below H that fails
admission stays, with every entry behind it, and nothing else on its lane changes; and no ACTIVE lane is left with
another head (R106, R109, R111). -/
def Obligations.GateTickLeavesOnlyBlockedHeads : Prop :=
  ∀ s : State, s.clocked = true → ∃ t : State, exec .gateTick s = .next t ∧
    (∀ l : LaneId, (t.lane l).mode = (s.lane l).mode ∧ (t.framesOf l).length = (s.framesOf l).length) ∧
    (∀ l : LaneId, (s.lane l).mode.enforcing = false → t.lane l = s.lane l ∧ t.records l = s.records l) ∧
    (∀ l : LaneId, (s.lane l).mode = .draining → t.records l = s.records l ∧
      t.lane l = { s.lane l with
        queue := (s.lane l).queue.map fun e => { e with heldTicks := min 255 (e.heldTicks + 1) } }) ∧
    (∀ l : LaneId, (s.lane l).mode = .active → ∃ released kept : List QueueEntry,
      (s.lane l).queue = released ++ kept ∧ s.Released l released t ∧
      (t.lane l).queue = kept.map (fun e => { e with heldTicks := min 255 (e.heldTicks + 1) }) ∧
      (t.lane l).counters.forced = bump^[(released.filter fun e =>
        e.kind ≠ .follower ∧ (s.lane l).params.holdLimit ≤ min 255 (e.heldTicks + 1)).length]
          (s.lane l).counters.forced ∧
      ∃ u v : State, s.LaneTurn l u v t ∧
        (u.modLane l fun x => { x with
          queue := x.queue.map fun e => { e with heldTicks := min 255 (e.heldTicks + 1) } }).Reevaluated true l
          (released.map fun e => { e with heldTicks := min 255 (e.heldTicks + 1) }) v) ∧
    (∀ (l : LaneId) (e : QueueEntry) (rest : List QueueEntry) (d : ClassDecision), (s.lane l).mode = .active →
      (s.lane l).queue = e :: rest → e.kind = .gated d →
      min 255 (e.heldTicks + 1) < (s.lane l).params.holdLimit → s.passesAdmission l e.key d.cost = false →
      t.records l = s.records l ∧ t.lane l = { s.lane l with
        queue := (s.lane l).queue.map fun e => { e with heldTicks := min 255 (e.heldTicks + 1) } }) ∧
    (∀ (l : LaneId) (e : QueueEntry) (rest : List QueueEntry), (s.lane l).mode = .active →
      (t.lane l).queue = e :: rest → e.heldTicks < (t.lane l).params.holdLimit ∧
        ∃ d : ClassDecision, e.kind = .gated d ∧ t.passesAdmission l e.key d.cost = false)

/-- The hold limit forces a GATED head of an ACTIVE lane whose held ticks stand at H: it leaves without the admission
test, and the re-evaluation goes on step by step to a head that is blocked, which stays with every entry behind it; the
entries released leave in queue order, each accounted and rewritten, and FORCED is counted once for each GATED one with
held ticks of H or more and for no other (R106, R109, R111). The command's own form is the model's:
notes/assumptions/7.md. -/
def Obligations.HoldLimitForcesTheHead : Prop :=
  ∀ (l : LaneId) (s : State) (e : QueueEntry) (rest : List QueueEntry) (d : ClassDecision), s.clocked = true →
    (s.lane l).mode = .active → (s.lane l).queue = e :: rest → e.kind = .gated d →
    (s.lane l).params.holdLimit ≤ e.heldTicks →
    ∃ (t : State) (released : List QueueEntry), exec (.holdLimit l) s = .next t ∧
      rest = released ++ (t.lane l).queue ∧ s.Released l (e :: released) t ∧ (t.lane l).mode = .active ∧
      s.Reevaluated true l (e :: released) t ∧
      (t.framesOf l).length = (s.framesOf l).length ∧
      bump (s.lane l).counters.forced ≤ (t.lane l).counters.forced ∧
      (t.lane l).counters.forced = bump^[((e :: released).filter fun e =>
        e.kind ≠ .follower ∧ (s.lane l).params.holdLimit ≤ e.heldTicks).length] (s.lane l).counters.forced ∧
      (∀ (e' : QueueEntry) (rest' : List QueueEntry), (t.lane l).queue = e' :: rest' →
        e'.heldTicks < (t.lane l).params.holdLimit ∧
          ∃ d' : ClassDecision, e'.kind = .gated d' ∧ t.passesAdmission l e'.key d'.cost = false) ∧
      s.LaneEvent l t

/-- The probe's tick. First the engine acts by its state: a WAITING one starts its window, a MEASURING one before its end
tick counts one window tick and keeps its validity only while C is at least floor(B / 2), one at its end tick completes
and is granted to the head of the queue or is IDLE, and an IDLE one does nothing. Then every ACTIVE lane's interval count
with K above 0 rises by one, and each that reaches K returns to 0 and places a SHORT request, in ascending lane number: a
lane queued already keeps its request, the others join the tail, and an IDLE engine is granted to the first of them (R142,
R143, R146, R147, R149, R152). What an engine that stays IDLE keeps of its counts and of valid is the model's:
notes/assumptions/14.md. -/
def Obligations.ProbeTickCountsWindowsAndIntervals : Prop :=
  ∀ s : State, s.clocked = true → ∃ t : State, exec .probeTick s = .next t ∧
    (∀ r : ProbeRequest, s.probe.engine = .waiting r → t.probe.engine = .measuring r ∧
      t.probe.windowTicks = s.probe.windowTicks ∧ t.probe.byteCount = s.probe.byteCount ∧
      t.probe.valid = s.probe.valid) ∧
    (∀ r : ProbeRequest, s.probe.engine = .measuring r →
      s.probe.windowTicks + 1 < (if r.kind = .long then 8 else 2) →
      t.probe.engine = .measuring r ∧ t.probe.windowTicks = s.probe.windowTicks + 1 ∧
      t.probe.byteCount = s.probe.byteCount ∧
      t.probe.valid = (s.probe.valid && decide ((s.lane r.lane).budget / 2 ≤ s.c r.lane))) ∧
    (s.ProbeLegal → ∃ (p : Probe) (requests : List ProbeRequest),
      (s.probe.engine = .idle → p = s.probe) ∧
      (∀ r : ProbeRequest, s.probe.engine = .waiting r → p = { s.probe with engine := .measuring r }) ∧
      (∀ r : ProbeRequest, s.probe.engine = .measuring r →
        s.probe.windowTicks + 1 < (if r.kind = .long then 8 else 2) →
        p = { s.probe with
          windowTicks := s.probe.windowTicks + 1
          valid := s.probe.valid && decide ((s.lane r.lane).budget / 2 ≤ s.c r.lane) }) ∧
      (∀ r : ProbeRequest, s.probe.engine = .measuring r →
        (if r.kind = .long then 8 else 2) ≤ s.probe.windowTicks + 1 →
        (∀ (q : ProbeRequest) (rest : List ProbeRequest), s.probe.queue = q :: rest →
          p = ⟨rest, .waiting q, 0, 0, true⟩) ∧
        (s.probe.queue = [] → p.engine = .idle ∧ p.queue = [])) ∧
      requests = (([0, 1, 2, 3, 4, 5, 6, 7] : List LaneId).filter fun l =>
        (s.lane l).mode = .active ∧ (s.lane l).params.probeInterval ≠ 0 ∧
          (s.lane l).params.probeInterval ≤ (s.lane l).intervalCount + 1 ∧ l ∉ p.queue.map (·.lane)).map
        (fun l => ⟨l, .short⟩) ∧
      (p.engine ≠ .idle → t.probe = { p with queue := p.queue ++ requests }) ∧
      (p.engine = .idle → requests = [] → t.probe = p) ∧
      (∀ (q : ProbeRequest) (rest : List ProbeRequest), p.engine = .idle → requests = q :: rest →
        t.probe = ⟨rest, .waiting q, 0, 0, true⟩)) ∧
    (∀ l : LaneId, (t.lane l).intervalCount =
      (if (s.lane l).mode = .active ∧ (s.lane l).params.probeInterval ≠ 0 then
        if (s.lane l).params.probeInterval ≤ (s.lane l).intervalCount + 1 then 0
        else (s.lane l).intervalCount + 1
      else (s.lane l).intervalCount)) ∧
    (∀ l : LaneId, (t.lane l).mode = (s.lane l).mode ∧ (t.lane l).params = (s.lane l).params) ∧
    t.timer = s.timer ∧ t.keepalive = s.keepalive ∧ t.windows = s.windows

/-- The start tick of a probe's window, and the tick that brings a lane's interval count to K, each as a command of its
own: the WAITING engine MEASURES; the count returns to 0 and the SHORT request joins the queue, keeps a queued one, or
is granted by an IDLE engine (R142, R143, R147). The commands' own form is the model's: notes/assumptions/7.md. -/
def Obligations.WindowStartAndIntervalRequest : Prop :=
  (∀ (s : State) (r : ProbeRequest), s.clocked = true → s.probe.engine = .waiting r →
    exec .probeWindowStart s = .next { s with probe := { s.probe with engine := .measuring r } }) ∧
  (∀ (l : LaneId) (s : State), s.clocked = true → (s.lane l).mode = .active →
    (s.lane l).params.probeInterval ≠ 0 → (s.lane l).params.probeInterval ≤ (s.lane l).intervalCount + 1 →
    ∃ t : State, exec (.probeIntervalRequest l) s = .next t ∧
      { t with probe := s.probe } = s.modLane l (fun x => { x with intervalCount := 0 }) ∧
      (l ∈ s.probe.queue.map (·.lane) → t.probe = s.probe) ∧
      (l ∉ s.probe.queue.map (·.lane) → s.probe.engine ≠ .idle →
        t.probe = { s.probe with queue := s.probe.queue ++ [⟨l, .short⟩] }) ∧
      (s.probe.queue = [] → s.probe.engine = .idle → t.probe = ⟨[], .waiting ⟨l, .short⟩, 0, 0, true⟩))

/-- The end tick of a probe's window: a window valid to its end gives R_meas, the counted bytes over the window's
epochs between a sixteenth of R_nominal and R_nominal, and the lane is recomputed with it; a window not valid gives
PROBE_UNSAT and leaves R_meas; a rise of B lets an ACTIVE lane's queue be re-evaluated (R91, R109); PROBE is latched, and
the engine is granted to the head of the queue with its counts at 0 and valid yes, or is IDLE (R146, R149, R150). It falls
inside PROBE_TICK, which then advances the interval counts and may place requests behind (R142, R152); PROBE_COMPLETION as
a step of its own, with no interval count advanced, is the model's form: notes/assumptions/7.md. -/
def Obligations.ProbeCompletionWritesTheRate : Prop :=
  ∀ (c : Instr) (s : State) (r : ProbeRequest) (window : Nat), c = .probeTick ∨ c = .probeCompletion →
    s.clocked = true → s.probe.engine = .measuring r →
    window = (if r.kind = .long then 8 else 2) → window ≤ s.probe.windowTicks + 1 →
    ∃ t : State, exec c s = .next t ∧ t.latched .probe = true ∧
      t.probe.engine ≠ .measuring r ∧
      (∀ (q : ProbeRequest) (rest : List ProbeRequest), s.ProbeLegal → s.probe.queue = q :: rest →
        t.probe.engine = .waiting q ∧ t.probe.windowTicks = 0 ∧ t.probe.byteCount = 0 ∧ t.probe.valid = true ∧
        rest <+: t.probe.queue ∧ (c = .probeCompletion → t.probe.queue = rest)) ∧
      (c = .probeCompletion → s.probe.queue = [] → t.probe.engine = .idle ∧ t.probe.queue = []) ∧
      (s.probe.valid = true → (s.lane r.lane).budget / 2 ≤ s.c r.lane → ∃ m : Nat,
        m = max (max 1 ((s.lane r.lane).params.rNominal / 16))
          (min (s.lane r.lane).params.rNominal (s.probe.byteCount / window)) ∧
        (t.lane r.lane).rMeas = some m ∧
        (t.lane r.lane).rEff = min (s.lane r.lane).params.rNominal m ∧
        (t.lane r.lane).budget = min 16777215 ((s.lane r.lane).params.bufferShare +
          min (s.lane r.lane).params.rNominal m * (s.lane r.lane).params.targetDelay / 16) ∧
        (t.lane r.lane).counters.probeUnsat = (s.lane r.lane).counters.probeUnsat ∧
        ∃ (w v : State) (released : List QueueEntry),
          { w with probe := s.probe } = (s.modLane r.lane fun x => { x with rMeas := some m }).recompute r.lane ∧
          w.Reconsidered r.lane ((s.lane r.lane).budget < (w.lane r.lane).budget) released v ∧
          t.lane r.lane = { v.lane r.lane with intervalCount := (t.lane r.lane).intervalCount } ∧
          t.records r.lane = v.records r.lane) ∧
      (s.probe.valid = false ∨ s.c r.lane < (s.lane r.lane).budget / 2 →
        t.lane r.lane = { s.lane r.lane with
          counters := { (s.lane r.lane).counters with
            probeUnsat := bump (s.lane r.lane).counters.probeUnsat }
          intervalCount := (t.lane r.lane).intervalCount } ∧
        t.pool = s.pool) ∧
      (∀ l : LaneId, l ≠ r.lane →
        t.lane l = { s.lane l with intervalCount := (t.lane l).intervalCount } ∧ t.records l = s.records l) ∧
      ∀ l : LaneId, (t.lane l).intervalCount =
        (if c = .probeTick ∧ (s.lane l).mode = .active ∧ (s.lane l).params.probeInterval ≠ 0 then
          if (s.lane l).params.probeInterval ≤ (s.lane l).intervalCount + 1 then 0
          else (s.lane l).intervalCount + 1
        else (s.lane l).intervalCount)

/-- The tick at the keepalive monitor: OFF and EXPIRED do not move, RUNNING counts, and the tick that brings the count
to T expires the monitor: WDOG latched, every tracking lane in FAILSAFE with its held frames ready in their order, its
records as they stood, and every other lane untouched (R34, R119, R174, R175). KEEPALIVE_EXPIRY is that tick as a
command of its own (the model's form: notes/assumptions/7.md). -/
def Obligations.KeepaliveTickCountsAndExpires : Prop :=
  (∀ s : State, s.clocked = true → s.keepalive.state ≠ .running → exec .keepaliveTick s = .next s) ∧
  (∀ s : State, s.clocked = true → s.keepalive.state = .running →
    s.keepalive.count + 1 < s.keepalive.period →
    exec .keepaliveTick s = .next { s with
      keepalive := { s.keepalive with count := s.keepalive.count + 1 } }) ∧
  (∀ s : State, s.clocked = true → s.keepalive.state = .running →
    s.keepalive.period ≤ s.keepalive.count + 1 →
    ∃ t : State, exec .keepaliveTick s = .next t ∧ exec .keepaliveExpiry s = .next t ∧
      t.keepalive = ⟨s.keepalive.period, s.keepalive.count + 1, .expired⟩ ∧ t.latched .wdog = true ∧
      (∀ l : LaneId, (s.lane l).mode.tracking = true → (t.lane l).mode = .failsafe ∧ (t.lane l).target = .none ∧
        (t.lane l).queue = [] ∧ t.framesOf l = s.framesOf l ∧ (t.lane l).counters = (s.lane l).counters ∧
        l ∉ t.probe.queue.map (·.lane)) ∧
      (∀ l : LaneId, (s.lane l).mode.tracking = false → t.lane l = s.lane l) ∧
      t.pool = s.pool ∧ t.timer = s.timer ∧ t.windows = s.windows ∧ t.control = s.control)

/-! ### The whole machine -/

/-- Whatever a command is, a lane's mode changes only at the events the manual names: the pins, SET-LANE-MODE naming
the lane, CHIP-RESET, an expiry, and, out of DRAINING alone, RELEASE-LANE naming it, its outbound arrivals, the ends of
its frames and its drain releases (R20, R33, R34, R171, R183). -/
def Obligations.ModesChangeOnlyAtNamedEvents : Prop :=
  ∀ (c : Instr) (s t : State) (l : LaneId), exec c s = .next t → (t.lane l).mode ≠ (s.lane l).mode →
    c = .powerOn ∨ c = .rstNAssert ∨ (∃ (a : BitVec 4) (k : BitVec 2) (p : BitVec 1), c = .rstNRelease a k p) ∨
    (∃ params : List Byte, c = .setLaneMode params ∧ byteAt params 0 = l.val) ∨
    (∃ params : List Byte, c = .chipReset params) ∨ c = .keepaliveTick ∨ c = .keepaliveExpiry ∨
    ((s.lane l).mode = .draining ∧
      ((∃ params : List Byte, c = .releaseLane params ∧ byteAt params 0 = l.val) ∨
        (∃ f : Frame, c = .outboundArrival l f) ∨ c = .outputFrameEnd l ∨ c = .drainRelease l))

/-- The records of a lane in BYPASS or FAILSAFE are frozen: no command changes, adds or removes one but FLUSH-FLOWS
and EVICT-FLOW naming the lane, SET-LANE-MODE naming the lane, CHIP-RESET, power-on and the reset pin (R26). -/
def Obligations.FrozenRecordsStand : Prop :=
  ∀ (c : Instr) (s t : State) (l : LaneId), s.PoolCanonical → s.ProbeLegal → exec c s = .next t →
    (s.lane l).mode.tracking = false → t.records l ≠ s.records l →
    c = .powerOn ∨ c = .rstNAssert ∨ (∃ (a : BitVec 4) (k : BitVec 2) (p : BitVec 1), c = .rstNRelease a k p) ∨
    (∃ params : List Byte, (c = .setLaneMode params ∨ c = .flushFlows params ∨ c = .evictFlow params) ∧
      byteAt params 0 = l.val) ∨
    (∃ params : List Byte, c = .chipReset params)

/-- The lanes are independent (00_scope.md, Block Overview) and records belong to one lane each (R54): an arrival, the
end of a frame or a drain release on one lane leaves every other lane, its records, the match windows, the timer, the
keepalive monitor, the enables and the straps as they stood, and clears no latched event. -/
def Obligations.PortEventsStayOnTheirLane : Prop :=
  ∀ (c : Instr) (l : LaneId) (s t : State), c.portLane = some l → exec c s = .next t →
    (∀ l' : LaneId, l' ≠ l → t.lane l' = s.lane l' ∧ t.records l' = s.records l') ∧
    t.windows = s.windows ∧ t.timer = s.timer ∧ t.keepalive = s.keepalive ∧ t.enables = s.enables ∧
    t.straps = s.straps ∧ t.rstN = s.rstN ∧ t.refclk = s.refclk ∧ t.pending = s.pending ∧
    ∀ e : Event, s.latched e = true → t.latched e = true

/-- The number of frames of a lane's fabric side, sent, being sent, ready, answering or held, is the same after any
command as before, but for the arrival of a frame from the station that is not dropped, which adds one, and a response
taken from the control engine into an empty slot or at the start of the one in it, which adds one (R16 to R18, R106,
R113). It says nothing of POWER_ON and the two edges of RST_N, at which the part loses the frames it holds (R1). -/
def Obligations.NoFrameIsLostOrMade : Prop :=
  ∀ (c : Instr) (s t : State) (l : LaneId), s.QueuesLegal → exec c s = .next t →
    c ≠ .powerOn → c ≠ .rstNAssert → (∀ (a : BitVec 4) (k : BitVec 2) (p : BitVec 1), c ≠ .rstNRelease a k p) →
    (∀ f : Frame, c = .outboundArrival l f → s.clocked = true → isOversize f = false →
      (isBad f = true ∨ isControl s.control.etherType s.straps.addr f = false) →
      (t.framesOf l).length = (s.framesOf l).length + 1) ∧
    ((∀ f : Frame, c = .outboundArrival l f → s.clocked = false ∨ isOversize f = true ∨
        (isBad f = false ∧ isControl s.control.etherType s.straps.addr f = true)) →
      (t.framesOf l).length = (s.framesOf l).length ∨
        ((t.framesOf l).length = (s.framesOf l).length + 1 ∧ (c = .responseHandover ∨ c = .outputFrameEnd l) ∧
          ∃ r : Frame, s.control.engine = .handOver l r ∧
            ((s.lane l).response = none ↔ c = .responseHandover)))

/-- Every step keeps the gate's bounds: at most 48 entries a queue and 1024 cells in all, entries in ACTIVE and
DRAINING alone, a DRAINING lane holding at least one, a drain target in DRAINING alone, and no FOLLOWER at the head of an
ACTIVE lane's queue (R20, R33, R99, R100, R104). And whatever the command, where it leaves an ACTIVE lane with a lower C
or n, or a higher B, or takes entries off the head of its queue, the re-evaluation has gone to its end: the queue is
empty, or its head is GATED and fails admission (R68, R91, R109). -/
def Obligations.StepKeepsQueuesAndStore : Prop :=
  (∀ s t : State, s.TargetsLegal → s.QueuesLegal → s.StoreWithin → step s = .next t →
    t.TargetsLegal ∧ t.QueuesLegal ∧ t.StoreWithin) ∧
  (∀ s t : State, s.QueuesLegal → s.HeadsGated → step s = .next t → t.HeadsGated) ∧
  (∀ (c : Instr) (s t : State) (l : LaneId) (e : QueueEntry) (rest : List QueueEntry), s.PoolCanonical →
    exec c s = .next t → (s.lane l).mode = .active → (t.lane l).mode = .active →
    t.c l < s.c l ∨ t.n l < s.n l ∨ (s.lane l).budget < (t.lane l).budget ∨
      ¬ ((s.lane l).queue.map fun x => { x with heldTicks := 0 }) <+:
        ((t.lane l).queue.map fun x => { x with heldTicks := 0 }) → (t.lane l).queue = e :: rest →
    ∃ d : ClassDecision, e.kind = .gated d ∧ t.passesAdmission l e.key d.cost = false)

/-- Every step keeps the flow table's bounds: one record a slot, keys distinct within a lane, no lane above its quota,
no expected above 16,777,215 (R54, R55, R57, R64). And every key of a record and of a held frame stays that of an IPv4 or
an IPv6 connection, its addresses 4 bytes or 16 (R7, R8, R12). -/
def Obligations.StepKeepsTheFlowTable : Prop :=
  (∀ s t : State, s.PoolCanonical → s.KeysUnique → s.QuotasKept → s.ExpectedWithin → step s = .next t →
    t.PoolCanonical ∧ t.KeysUnique ∧ t.QuotasKept ∧ t.ExpectedWithin) ∧
  (∀ s t : State, s.KeysLegal → step s = .next t → t.KeysLegal)

/-- Every step keeps each lane's grants within its budget, and OVERLOAD latched while its condition holds (R86, R95,
R178). And every step keeps every tracking lane recomputed: R_eff, B, n_max, the regime and every grant are those that a
recompute of the state would write, so every event that changes what a recompute reads is followed by one (R80 to R88,
R97). -/
def Obligations.StepKeepsGrantsWithinBudget : Prop :=
  (∀ s t : State, s.GrantsWithin → s.OverloadsLatched → step s = .next t → t.GrantsWithin ∧ t.OverloadsLatched) ∧
  (∀ s t : State, s.PoolCanonical → s.Recomputed → step s = .next t → t.Recomputed)

/-- Every step keeps the keepalive monitor and the probe legal: OFF exactly at T = 0, the count within T, each lane
queued once, only served lanes asked for, and no request waiting behind an IDLE engine (R141, R144, R146, R173). -/
def Obligations.StepKeepsKeepaliveAndProbeLegal : Prop :=
  ∀ s t : State, s.KeepaliveLegal → s.ProbeLegal → step s = .next t → t.KeepaliveLegal ∧ t.ProbeLegal

/-- Every step keeps the control engine legal: at most 4 frames in the FIFO and none behind an IDLE engine, and frames
and responses on control-enabled lanes alone; with CTLSEL = 11 the part stays sealed, every lane in BYPASS (R5, R17,
R20, R156, R157). That a sealed part executes no command given alone is the model's: notes/assumptions/2.md. -/
def Obligations.StepKeepsControlLegal : Prop :=
  ∀ s t : State, s.ControlLegal → s.Sealed → step s = .next t → t.ControlLegal ∧ t.Sealed

/-- Every step keeps the arbiters busy: an IDLE output has nothing ready and no response waiting (R16, R17), and no
drain release of R117 is left due. That a drain release is made inside the event that makes it due, and not as an event
after it, is the model's: notes/assumptions/8.md. -/
def Obligations.StepKeepsArbitersBusy : Prop :=
  ∀ s t : State, s.QueuesLegal → s.ArbitersLegal → step s = .next t → t.ArbitersLegal

/-- Every step keeps every lane parameter in its range of Table 5-2, every scale at most 14, and every weight of a
record, of a match window and of a held request's decision in 1 to 15 (R10, R42, R46, R50, R60, R79). -/
def Obligations.StepKeepsParamsAndScales : Prop :=
  (∀ s t : State, s.PoolCanonical → s.ParamsInRange → s.ScalesLegal → step s = .next t →
    t.ParamsInRange ∧ t.ScalesLegal) ∧
  (∀ s t : State, s.ParamsInRange → s.WeightsLegal → step s = .next t → t.WeightsLegal)

/-- The state right after reset has the power-on values and every invariant. Its strap values are the model's choice:
notes/assumptions/1.md. -/
def Obligations.ResetStateIsLegal : Prop :=
  State.reset.AtPowerOn ∧ State.reset.TargetsLegal ∧ State.reset.QueuesLegal ∧ State.reset.StoreWithin ∧
    State.reset.PoolCanonical ∧ State.reset.KeysUnique ∧ State.reset.QuotasKept ∧ State.reset.ExpectedWithin ∧
    State.reset.GrantsWithin ∧ State.reset.OverloadsLatched ∧ State.reset.KeepaliveLegal ∧ State.reset.ProbeLegal ∧
    State.reset.ControlLegal ∧ State.reset.Sealed ∧ State.reset.ArbitersLegal ∧ State.reset.ParamsInRange ∧
    State.reset.ScalesLegal ∧ State.reset.HeadsGated ∧ State.reset.Recomputed ∧ State.reset.WeightsLegal ∧
    State.reset.KeysLegal
end

