-- ==== Sys2Proof/Laws/State.lean ====
section
/-! SUPPORT. What each plain update of State leaves in each field, and how lanes, counters and records read after an
update. -/

namespace Sys2Proof.Machine

/-! ### One lemma per field per update -/

section setLane

variable (s : State) (l : LaneId) (x : LaneState)

@[simp] theorem State.setLane_windows : (s.setLane l x).windows = s.windows := rfl
@[simp] theorem State.setLane_pool : (s.setLane l x).pool = s.pool := rfl
@[simp] theorem State.setLane_timer : (s.setLane l x).timer = s.timer := rfl
@[simp] theorem State.setLane_probe : (s.setLane l x).probe = s.probe := rfl
@[simp] theorem State.setLane_keepalive : (s.setLane l x).keepalive = s.keepalive := rfl
@[simp] theorem State.setLane_control : (s.setLane l x).control = s.control := rfl
@[simp] theorem State.setLane_latch : (s.setLane l x).latch = s.latch := rfl
@[simp] theorem State.setLane_enables : (s.setLane l x).enables = s.enables := rfl
@[simp] theorem State.setLane_straps : (s.setLane l x).straps = s.straps := rfl
@[simp] theorem State.setLane_rstN : (s.setLane l x).rstN = s.rstN := rfl
@[simp] theorem State.setLane_refclk : (s.setLane l x).refclk = s.refclk := rfl
@[simp] theorem State.setLane_stationSent : (s.setLane l x).stationSent = s.stationSent := rfl
@[simp] theorem State.setLane_fabricSent : (s.setLane l x).fabricSent = s.fabricSent := rfl
@[simp] theorem State.setLane_lastItem : (s.setLane l x).lastItem = s.lastItem := rfl
@[simp] theorem State.setLane_orderIndex : (s.setLane l x).orderIndex = s.orderIndex := rfl
@[simp] theorem State.setLane_pending : (s.setLane l x).pending = s.pending := rfl

end setLane

section modLane

variable (s : State) (l : LaneId) (f : LaneState → LaneState)

@[simp] theorem State.modLane_windows : (s.modLane l f).windows = s.windows := rfl
@[simp] theorem State.modLane_pool : (s.modLane l f).pool = s.pool := rfl
@[simp] theorem State.modLane_timer : (s.modLane l f).timer = s.timer := rfl
@[simp] theorem State.modLane_probe : (s.modLane l f).probe = s.probe := rfl
@[simp] theorem State.modLane_keepalive : (s.modLane l f).keepalive = s.keepalive := rfl
@[simp] theorem State.modLane_control : (s.modLane l f).control = s.control := rfl
@[simp] theorem State.modLane_latch : (s.modLane l f).latch = s.latch := rfl
@[simp] theorem State.modLane_enables : (s.modLane l f).enables = s.enables := rfl
@[simp] theorem State.modLane_straps : (s.modLane l f).straps = s.straps := rfl
@[simp] theorem State.modLane_rstN : (s.modLane l f).rstN = s.rstN := rfl
@[simp] theorem State.modLane_refclk : (s.modLane l f).refclk = s.refclk := rfl
@[simp] theorem State.modLane_stationSent : (s.modLane l f).stationSent = s.stationSent := rfl
@[simp] theorem State.modLane_fabricSent : (s.modLane l f).fabricSent = s.fabricSent := rfl
@[simp] theorem State.modLane_lastItem : (s.modLane l f).lastItem = s.lastItem := rfl
@[simp] theorem State.modLane_orderIndex : (s.modLane l f).orderIndex = s.orderIndex := rfl
@[simp] theorem State.modLane_pending : (s.modLane l f).pending = s.pending := rfl

end modLane

section countLane

variable (s : State) (l : LaneId) (c : LaneCounter)

@[simp] theorem State.countLane_windows : (s.countLane l c).windows = s.windows := rfl
@[simp] theorem State.countLane_pool : (s.countLane l c).pool = s.pool := rfl
@[simp] theorem State.countLane_timer : (s.countLane l c).timer = s.timer := rfl
@[simp] theorem State.countLane_probe : (s.countLane l c).probe = s.probe := rfl
@[simp] theorem State.countLane_keepalive : (s.countLane l c).keepalive = s.keepalive := rfl
@[simp] theorem State.countLane_control : (s.countLane l c).control = s.control := rfl
@[simp] theorem State.countLane_latch : (s.countLane l c).latch = s.latch := rfl
@[simp] theorem State.countLane_enables : (s.countLane l c).enables = s.enables := rfl
@[simp] theorem State.countLane_straps : (s.countLane l c).straps = s.straps := rfl
@[simp] theorem State.countLane_rstN : (s.countLane l c).rstN = s.rstN := rfl
@[simp] theorem State.countLane_refclk : (s.countLane l c).refclk = s.refclk := rfl
@[simp] theorem State.countLane_stationSent : (s.countLane l c).stationSent = s.stationSent := rfl
@[simp] theorem State.countLane_fabricSent : (s.countLane l c).fabricSent = s.fabricSent := rfl
@[simp] theorem State.countLane_lastItem : (s.countLane l c).lastItem = s.lastItem := rfl
@[simp] theorem State.countLane_orderIndex : (s.countLane l c).orderIndex = s.orderIndex := rfl
@[simp] theorem State.countLane_pending : (s.countLane l c).pending = s.pending := rfl

end countLane

section makeReady

variable (s : State) (l : LaneId) (f : Frame)

@[simp] theorem State.makeReady_windows : (s.makeReady l f).windows = s.windows := rfl
@[simp] theorem State.makeReady_pool : (s.makeReady l f).pool = s.pool := rfl
@[simp] theorem State.makeReady_timer : (s.makeReady l f).timer = s.timer := rfl
@[simp] theorem State.makeReady_probe : (s.makeReady l f).probe = s.probe := rfl
@[simp] theorem State.makeReady_keepalive : (s.makeReady l f).keepalive = s.keepalive := rfl
@[simp] theorem State.makeReady_control : (s.makeReady l f).control = s.control := rfl
@[simp] theorem State.makeReady_latch : (s.makeReady l f).latch = s.latch := rfl
@[simp] theorem State.makeReady_enables : (s.makeReady l f).enables = s.enables := rfl
@[simp] theorem State.makeReady_straps : (s.makeReady l f).straps = s.straps := rfl
@[simp] theorem State.makeReady_rstN : (s.makeReady l f).rstN = s.rstN := rfl
@[simp] theorem State.makeReady_refclk : (s.makeReady l f).refclk = s.refclk := rfl
@[simp] theorem State.makeReady_stationSent : (s.makeReady l f).stationSent = s.stationSent := rfl
@[simp] theorem State.makeReady_fabricSent : (s.makeReady l f).fabricSent = s.fabricSent := rfl
@[simp] theorem State.makeReady_lastItem : (s.makeReady l f).lastItem = s.lastItem := rfl
@[simp] theorem State.makeReady_orderIndex : (s.makeReady l f).orderIndex = s.orderIndex := rfl
@[simp] theorem State.makeReady_pending : (s.makeReady l f).pending = s.pending := rfl

end makeReady

section sendStation

variable (s : State) (l : LaneId) (f : Frame)

@[simp] theorem State.sendStation_lanes : (s.sendStation l f).lanes = s.lanes := rfl
@[simp] theorem State.sendStation_windows : (s.sendStation l f).windows = s.windows := rfl
@[simp] theorem State.sendStation_pool : (s.sendStation l f).pool = s.pool := rfl
@[simp] theorem State.sendStation_timer : (s.sendStation l f).timer = s.timer := rfl
@[simp] theorem State.sendStation_probe : (s.sendStation l f).probe = s.probe := rfl
@[simp] theorem State.sendStation_keepalive : (s.sendStation l f).keepalive = s.keepalive := rfl
@[simp] theorem State.sendStation_control : (s.sendStation l f).control = s.control := rfl
@[simp] theorem State.sendStation_latch : (s.sendStation l f).latch = s.latch := rfl
@[simp] theorem State.sendStation_enables : (s.sendStation l f).enables = s.enables := rfl
@[simp] theorem State.sendStation_straps : (s.sendStation l f).straps = s.straps := rfl
@[simp] theorem State.sendStation_rstN : (s.sendStation l f).rstN = s.rstN := rfl
@[simp] theorem State.sendStation_refclk : (s.sendStation l f).refclk = s.refclk := rfl
@[simp] theorem State.sendStation_fabricSent : (s.sendStation l f).fabricSent = s.fabricSent := rfl
@[simp] theorem State.sendStation_lastItem : (s.sendStation l f).lastItem = s.lastItem := rfl
@[simp] theorem State.sendStation_orderIndex : (s.sendStation l f).orderIndex = s.orderIndex := rfl
@[simp] theorem State.sendStation_pending : (s.sendStation l f).pending = s.pending := rfl

end sendStation

section sendFabric

variable (s : State) (l : LaneId) (f : Frame)

@[simp] theorem State.sendFabric_lanes : (s.sendFabric l f).lanes = s.lanes := rfl
@[simp] theorem State.sendFabric_windows : (s.sendFabric l f).windows = s.windows := rfl
@[simp] theorem State.sendFabric_pool : (s.sendFabric l f).pool = s.pool := rfl
@[simp] theorem State.sendFabric_timer : (s.sendFabric l f).timer = s.timer := rfl
@[simp] theorem State.sendFabric_probe : (s.sendFabric l f).probe = s.probe := rfl
@[simp] theorem State.sendFabric_keepalive : (s.sendFabric l f).keepalive = s.keepalive := rfl
@[simp] theorem State.sendFabric_control : (s.sendFabric l f).control = s.control := rfl
@[simp] theorem State.sendFabric_latch : (s.sendFabric l f).latch = s.latch := rfl
@[simp] theorem State.sendFabric_enables : (s.sendFabric l f).enables = s.enables := rfl
@[simp] theorem State.sendFabric_straps : (s.sendFabric l f).straps = s.straps := rfl
@[simp] theorem State.sendFabric_rstN : (s.sendFabric l f).rstN = s.rstN := rfl
@[simp] theorem State.sendFabric_refclk : (s.sendFabric l f).refclk = s.refclk := rfl
@[simp] theorem State.sendFabric_stationSent : (s.sendFabric l f).stationSent = s.stationSent := rfl
@[simp] theorem State.sendFabric_lastItem : (s.sendFabric l f).lastItem = s.lastItem := rfl
@[simp] theorem State.sendFabric_orderIndex : (s.sendFabric l f).orderIndex = s.orderIndex := rfl
@[simp] theorem State.sendFabric_pending : (s.sendFabric l f).pending = s.pending := rfl

end sendFabric

section modRecord

variable (s : State) (l : LaneId) (key : FlowKey) (f : FlowRecord → FlowRecord)

@[simp] theorem State.modRecord_lanes : (s.modRecord l key f).lanes = s.lanes := rfl
@[simp] theorem State.modRecord_windows : (s.modRecord l key f).windows = s.windows := rfl
@[simp] theorem State.modRecord_timer : (s.modRecord l key f).timer = s.timer := rfl
@[simp] theorem State.modRecord_probe : (s.modRecord l key f).probe = s.probe := rfl
@[simp] theorem State.modRecord_keepalive : (s.modRecord l key f).keepalive = s.keepalive := rfl
@[simp] theorem State.modRecord_control : (s.modRecord l key f).control = s.control := rfl
@[simp] theorem State.modRecord_latch : (s.modRecord l key f).latch = s.latch := rfl
@[simp] theorem State.modRecord_enables : (s.modRecord l key f).enables = s.enables := rfl
@[simp] theorem State.modRecord_straps : (s.modRecord l key f).straps = s.straps := rfl
@[simp] theorem State.modRecord_rstN : (s.modRecord l key f).rstN = s.rstN := rfl
@[simp] theorem State.modRecord_refclk : (s.modRecord l key f).refclk = s.refclk := rfl
@[simp] theorem State.modRecord_stationSent : (s.modRecord l key f).stationSent = s.stationSent := rfl
@[simp] theorem State.modRecord_fabricSent : (s.modRecord l key f).fabricSent = s.fabricSent := rfl
@[simp] theorem State.modRecord_lastItem : (s.modRecord l key f).lastItem = s.lastItem := rfl
@[simp] theorem State.modRecord_orderIndex : (s.modRecord l key f).orderIndex = s.orderIndex := rfl
@[simp] theorem State.modRecord_pending : (s.modRecord l key f).pending = s.pending := rfl

end modRecord

section removeLaneRecords

variable (s : State) (l : LaneId)

@[simp] theorem State.removeLaneRecords_lanes : (s.removeLaneRecords l).lanes = s.lanes := rfl
@[simp] theorem State.removeLaneRecords_windows : (s.removeLaneRecords l).windows = s.windows := rfl
@[simp] theorem State.removeLaneRecords_timer : (s.removeLaneRecords l).timer = s.timer := rfl
@[simp] theorem State.removeLaneRecords_probe : (s.removeLaneRecords l).probe = s.probe := rfl
@[simp] theorem State.removeLaneRecords_keepalive : (s.removeLaneRecords l).keepalive = s.keepalive := rfl
@[simp] theorem State.removeLaneRecords_control : (s.removeLaneRecords l).control = s.control := rfl
@[simp] theorem State.removeLaneRecords_latch : (s.removeLaneRecords l).latch = s.latch := rfl
@[simp] theorem State.removeLaneRecords_enables : (s.removeLaneRecords l).enables = s.enables := rfl
@[simp] theorem State.removeLaneRecords_straps : (s.removeLaneRecords l).straps = s.straps := rfl
@[simp] theorem State.removeLaneRecords_rstN : (s.removeLaneRecords l).rstN = s.rstN := rfl
@[simp] theorem State.removeLaneRecords_refclk : (s.removeLaneRecords l).refclk = s.refclk := rfl
@[simp] theorem State.removeLaneRecords_stationSent : (s.removeLaneRecords l).stationSent = s.stationSent := rfl
@[simp] theorem State.removeLaneRecords_fabricSent : (s.removeLaneRecords l).fabricSent = s.fabricSent := rfl
@[simp] theorem State.removeLaneRecords_lastItem : (s.removeLaneRecords l).lastItem = s.lastItem := rfl
@[simp] theorem State.removeLaneRecords_orderIndex : (s.removeLaneRecords l).orderIndex = s.orderIndex := rfl
@[simp] theorem State.removeLaneRecords_pending : (s.removeLaneRecords l).pending = s.pending := rfl

end removeLaneRecords

section removeRecord

variable (s : State) (l : LaneId) (key : FlowKey)

@[simp] theorem State.removeRecord_lanes : (s.removeRecord l key).lanes = s.lanes := rfl
@[simp] theorem State.removeRecord_windows : (s.removeRecord l key).windows = s.windows := rfl
@[simp] theorem State.removeRecord_timer : (s.removeRecord l key).timer = s.timer := rfl
@[simp] theorem State.removeRecord_probe : (s.removeRecord l key).probe = s.probe := rfl
@[simp] theorem State.removeRecord_keepalive : (s.removeRecord l key).keepalive = s.keepalive := rfl
@[simp] theorem State.removeRecord_control : (s.removeRecord l key).control = s.control := rfl
@[simp] theorem State.removeRecord_latch : (s.removeRecord l key).latch = s.latch := rfl
@[simp] theorem State.removeRecord_enables : (s.removeRecord l key).enables = s.enables := rfl
@[simp] theorem State.removeRecord_straps : (s.removeRecord l key).straps = s.straps := rfl
@[simp] theorem State.removeRecord_rstN : (s.removeRecord l key).rstN = s.rstN := rfl
@[simp] theorem State.removeRecord_refclk : (s.removeRecord l key).refclk = s.refclk := rfl
@[simp] theorem State.removeRecord_stationSent : (s.removeRecord l key).stationSent = s.stationSent := rfl
@[simp] theorem State.removeRecord_fabricSent : (s.removeRecord l key).fabricSent = s.fabricSent := rfl
@[simp] theorem State.removeRecord_lastItem : (s.removeRecord l key).lastItem = s.lastItem := rfl
@[simp] theorem State.removeRecord_orderIndex : (s.removeRecord l key).orderIndex = s.orderIndex := rfl
@[simp] theorem State.removeRecord_pending : (s.removeRecord l key).pending = s.pending := rfl

end removeRecord

section latchEvent

variable (s : State) (e : Event)

@[simp] theorem State.latchEvent_lanes : (s.latchEvent e).lanes = s.lanes := rfl
@[simp] theorem State.latchEvent_windows : (s.latchEvent e).windows = s.windows := rfl
@[simp] theorem State.latchEvent_pool : (s.latchEvent e).pool = s.pool := rfl
@[simp] theorem State.latchEvent_timer : (s.latchEvent e).timer = s.timer := rfl
@[simp] theorem State.latchEvent_probe : (s.latchEvent e).probe = s.probe := rfl
@[simp] theorem State.latchEvent_keepalive : (s.latchEvent e).keepalive = s.keepalive := rfl
@[simp] theorem State.latchEvent_control : (s.latchEvent e).control = s.control := rfl
@[simp] theorem State.latchEvent_enables : (s.latchEvent e).enables = s.enables := rfl
@[simp] theorem State.latchEvent_straps : (s.latchEvent e).straps = s.straps := rfl
@[simp] theorem State.latchEvent_rstN : (s.latchEvent e).rstN = s.rstN := rfl
@[simp] theorem State.latchEvent_refclk : (s.latchEvent e).refclk = s.refclk := rfl
@[simp] theorem State.latchEvent_stationSent : (s.latchEvent e).stationSent = s.stationSent := rfl
@[simp] theorem State.latchEvent_fabricSent : (s.latchEvent e).fabricSent = s.fabricSent := rfl
@[simp] theorem State.latchEvent_lastItem : (s.latchEvent e).lastItem = s.lastItem := rfl
@[simp] theorem State.latchEvent_orderIndex : (s.latchEvent e).orderIndex = s.orderIndex := rfl
@[simp] theorem State.latchEvent_pending : (s.latchEvent e).pending = s.pending := rfl

end latchEvent

/-! ### Lanes -/

@[simp] theorem State.lane_setLane_same (s : State) (l : LaneId) (x : LaneState) : (s.setLane l x).lane l = x := by
  simp [State.setLane, State.lane, Vector.get_eq_getElem]

@[simp] theorem State.lane_setLane_ne (s : State) {l l' : LaneId} (x : LaneState) (h : l' ≠ l) :
    (s.setLane l x).lane l' = s.lane l' := by
  have hv : l.val ≠ l'.val := fun e => h (Fin.ext e.symm)
  simp [State.setLane, State.lane, Vector.get_eq_getElem, Vector.getElem_set_ne _ _ hv]

theorem State.lane_congr {s t : State} (h : s.lanes = t.lanes) (l : LaneId) : s.lane l = t.lane l := by
  simp [State.lane, h]

@[simp] theorem State.lane_modLane_same (s : State) (l : LaneId) (f : LaneState → LaneState) :
    (s.modLane l f).lane l = f (s.lane l) := by simp [State.modLane]

@[simp] theorem State.lane_modLane_ne (s : State) {l l' : LaneId} (f : LaneState → LaneState) (h : l' ≠ l) :
    (s.modLane l f).lane l' = s.lane l' := by simp [State.modLane, h]

/-- A lane's update reads as: the changed lane on its own number, the old lane on every other. -/
theorem State.lane_modLane (s : State) (l l' : LaneId) (f : LaneState → LaneState) :
    (s.modLane l f).lane l' = if l' = l then f (s.lane l) else s.lane l' := by
  by_cases h : l' = l
  · subst h; simp
  · simp [h]

@[simp] theorem State.lane_latchEvent (s : State) (e : Event) (l : LaneId) : (s.latchEvent e).lane l = s.lane l := rfl

@[simp] theorem State.lane_sendStation (s : State) (l l' : LaneId) (f : Frame) :
    (s.sendStation l f).lane l' = s.lane l' := rfl

@[simp] theorem State.lane_sendFabric (s : State) (l l' : LaneId) (f : Frame) :
    (s.sendFabric l f).lane l' = s.lane l' := rfl

@[simp] theorem State.lane_modRecord (s : State) (l l' : LaneId) (key : FlowKey) (f : FlowRecord → FlowRecord) :
    (s.modRecord l key f).lane l' = s.lane l' := rfl

@[simp] theorem State.lane_removeLaneRecords (s : State) (l l' : LaneId) :
    (s.removeLaneRecords l).lane l' = s.lane l' := rfl

@[simp] theorem State.lane_removeRecord (s : State) (l l' : LaneId) (key : FlowKey) :
    (s.removeRecord l key).lane l' = s.lane l' := rfl

@[simp] theorem State.lane_countLane_same (s : State) (l : LaneId) (c : LaneCounter) :
    (s.countLane l c).lane l = { s.lane l with counters := (s.lane l).counters.count c } := by simp [State.countLane]

@[simp] theorem State.lane_countLane_ne (s : State) {l l' : LaneId} (c : LaneCounter) (h : l' ≠ l) :
    (s.countLane l c).lane l' = s.lane l' := by simp [State.countLane, h]

/-- Counting on a lane changes nothing of any lane but its counters. -/
theorem State.lane_countLane (s : State) (l l' : LaneId) (c : LaneCounter) :
    ∃ k, (s.countLane l c).lane l' = { s.lane l' with counters := k } := by
  by_cases h : l' = l
  · subst h; exact ⟨(s.lane l').counters.count c, by simp⟩
  · exact ⟨(s.lane l').counters, by simp [h]⟩

@[simp] theorem State.lane_reset (l : LaneId) : State.reset.lane l = LaneState.reset := by
  simp [State.lane, State.reset, Vector.get_eq_getElem]

/-! ### The event latch -/

theorem BitVec19_getLsbD_mask (e : Event) : e.mask.getLsbD e.bit = true := by
  cases e with
  | wdog => decide
  | probe => decide
  | ctlDrop => decide
  | overload l => revert l; decide
  | gateFlush l => revert l; decide

@[simp] theorem State.latched_latchEvent_same (s : State) (e : Event) : (s.latchEvent e).latched e = true := by
  simp [State.latched, State.latchEvent, BitVec19_getLsbD_mask]

/-- Latching an event clears none. -/
theorem State.latched_latchEvent (s : State) (e e' : Event) (h : s.latched e' = true) :
    (s.latchEvent e).latched e' = true := by
  simp only [State.latched] at h
  simp [State.latched, State.latchEvent, h]

@[simp] theorem State.lane_latchOverload (s : State) (l l' : LaneId) : (s.latchOverload l).lane l' = s.lane l' := by
  unfold State.latchOverload; split <;> rfl

@[simp] theorem State.pool_latchOverload (s : State) (l : LaneId) : (s.latchOverload l).pool = s.pool := by
  unfold State.latchOverload; split <;> rfl

@[simp] theorem State.overloaded_latchEvent (s : State) (e : Event) (l : LaneId) :
    (s.latchEvent e).overloaded l = s.overloaded l := rfl

/-- After the hand-on, OVERLOAD[lane] is latched if its condition holds (R178). -/
theorem State.latchOverload_latched (s : State) (l : LaneId) (h : (s.latchOverload l).overloaded l = true) :
    (s.latchOverload l).latched (.overload l) = true := by
  unfold State.latchOverload at h ⊢
  split
  · simp
  · rename_i hn
    simp only [hn, Bool.false_eq_true, if_false] at h

end Sys2Proof.Machine
end

