-- ==== Sys2Proof/Laws/Engine.lean ====
section
/-! SUPPORT. What the control engine does with a command, said once: the effect apart from the engine, the item, and
the walk over the commands behind it (R157 to R160). -/

namespace Sys2Proof.Machine

@[simp] theorem serve_apartEngine (s : State) (f : InService) : (s.serve f).apartEngine = s.apartEngine := rfl

@[simp] theorem serve_lastItem (s : State) (f : InService) : (s.serve f).lastItem = s.lastItem := rfl

/-- Writing an item changes nothing apart from the engine and the record of the last item. -/
@[simp] theorem writeItem_apartEngine (s : State) (code : Byte) (o : CommandOutcome) (last : Bool) :
    (s.writeItem code o last).apartEngine = o.state.apartEngine := by
  unfold State.writeItem
  split <;> rfl

@[simp] theorem writeItem_lastItem (s : State) (code : Byte) (o : CommandOutcome) (last : Bool) :
    (s.writeItem code o last).lastItem = some ⟨code, o.status.code, o.results⟩ := by
  unfold State.writeItem
  split <;> rfl

/-- A command that the engine executes now has its effect, and its status and results in the item. -/
theorem runCommand_executed {s : State} {code : Byte} {params : List Byte} {space : Nat}
    (h : s.spaceFor code params = some space) (last : Bool) (effect : List Byte → Nat → State → CommandOutcome) :
    (s.runCommand code params last effect).apartEngine = (effect params space s).state.apartEngine ∧
      (s.runCommand code params last effect).lastItem =
        some ⟨code, (effect params space s).status.code, (effect params space s).results⟩ := by
  unfold State.runCommand
  rw [h]
  exact ⟨writeItem_apartEngine .., writeItem_lastItem ..⟩

/-- A command that the engine does not execute now changes nothing. -/
theorem runCommand_notNow {s : State} {code : Byte} {params : List Byte} (h : s.spaceFor code params = none)
    (last : Bool) (effect : List Byte → Nat → State → CommandOutcome) : s.runCommand code params last effect = s := by
  unfold State.runCommand
  rw [h]

/-- Deciding a command writes one item behind the others. -/
@[simp] theorem decideNext_items (f : InService) (st : Status) (r : List Byte) :
    (f.decideNext st r).items = f.items ++ [⟨f.codeByte, st.code, r⟩] := rfl

@[simp] theorem decideNext_lane (f : InService) (st : Status) (r : List Byte) : (f.decideNext st r).lane = f.lane := rfl

@[simp] theorem decideNext_frame (f : InService) (st : Status) (r : List Byte) : (f.decideNext st r).frame = f.frame := rfl

@[simp] theorem decideNext_payload (f : InService) (st : Status) (r : List Byte) :
    (f.decideNext st r).payload = f.payload := rfl

@[simp] theorem decideNext_remaining (f : InService) (st : Status) (r : List Byte) :
    (f.decideNext st r).remaining = f.remaining - 1 := rfl

/-- The walk over commands that are not executed keeps the frame and only adds items. -/
theorem walk_keeps (n : Nat) : ∀ f : InService,
    (InService.walk n f).lane = f.lane ∧ (InService.walk n f).frame = f.frame ∧
      (InService.walk n f).payload = f.payload ∧ ∃ more, (InService.walk n f).items = f.items ++ more := by
  induction n with
  | zero => exact fun f => ⟨rfl, rfl, rfl, [], by simp [InService.walk]⟩
  | succ n ih =>
    have keep : ∀ (f : InService) (st : Status), (InService.walk n (f.decideNext st [])).lane = f.lane ∧
        (InService.walk n (f.decideNext st [])).frame = f.frame ∧
        (InService.walk n (f.decideNext st [])).payload = f.payload ∧
        ∃ more, (InService.walk n (f.decideNext st [])).items = f.items ++ more := by
      intro f st
      obtain ⟨a, b, c, more, d⟩ := ih (f.decideNext st [])
      exact ⟨a, b, c, [⟨f.codeByte, st.code, []⟩] ++ more, by rw [d]; simp⟩
    intro f
    unfold InService.walk
    split
    · exact ⟨rfl, rfl, rfl, [], by simp⟩
    · split
      · exact keep f .abandoned
      · split
        · exact ⟨rfl, rfl, rfl, [], by simp⟩
        · exact keep f .unknown

/-- A command never makes more items than the frame's count: each one decided leaves one fewer. -/
theorem walk_count (n : Nat) : ∀ f : InService,
    (InService.walk n f).items.length + (InService.walk n f).remaining ≤ f.items.length + f.remaining := by
  induction n with
  | zero => exact fun f => Nat.le_refl _
  | succ n ih =>
    have keep : ∀ (f : InService) (st : Status), f.remaining ≠ 0 →
        (InService.walk n (f.decideNext st [])).items.length + (InService.walk n (f.decideNext st [])).remaining ≤
          f.items.length + f.remaining := by
      intro f st h
      have := ih (f.decideNext st [])
      simp only [decideNext_items, List.length_append, List.length_cons, List.length_nil, decideNext_remaining] at this
      omega
    intro f
    unfold InService.walk
    split
    · exact Nat.le_refl _
    · rename_i h
      split
      · exact keep f .abandoned h
      · split
        · exact Nat.le_refl _
        · exact keep f .unknown h

/-- Taking the next frame changes nothing apart from the FIFO and the engine. -/
theorem takeFrame_rest (s : State) :
    { s.takeFrame with control := { s.takeFrame.control with fifo := s.control.fifo, engine := s.control.engine } } = s := by
  unfold State.takeFrame
  split <;> rfl

@[simp] theorem takeFrame_lanes (s : State) : s.takeFrame.lanes = s.lanes := by
  unfold State.takeFrame; split <;> rfl

@[simp] theorem takeFrame_pool (s : State) : s.takeFrame.pool = s.pool := by
  unfold State.takeFrame; split <;> rfl

end Sys2Proof.Machine
end

