-- ==== Sys2Proof/Laws/Operands.lean ====
section
/-! SUPPORT. Lengths and values of byte fields and readouts (R182), and the FCS of a frame the part builds. -/

namespace Sys2Proof.Machine

@[simp] theorem beBytes_length (n v : Nat) : (beBytes n v).length = n := by
  induction n with
  | zero => rfl
  | succ n ih => simp [beBytes, ih]

@[simp] theorem zeros_length (n : Nat) : (zeros n).length = n := by simp [zeros]

@[simp] theorem optBytes_length (n : Nat) (v : Option Nat) : (optBytes n v).length = n + 1 := by
  cases v <;> simp [optBytes]

@[simp] theorem fcsBytes_length (c : List Byte) : (fcsBytes c).length = 4 := by simp [fcsBytes]

@[simp] theorem withFcs_length (c : List Byte) : (withFcs c).length = c.length + 4 := by simp [withFcs]

@[simp] theorem contentsOf_withFcs (c : List Byte) : contentsOf (withFcs c) = c := by
  simp [contentsOf, withFcs]

/-- A frame that the part closes with an FCS has a good FCS. -/
theorem withFcs_good (c : List Byte) :
    (withFcs c).drop ((withFcs c).length - 4) = fcsBytes (contentsOf (withFcs c)) := by
  rw [contentsOf_withFcs]
  simp [withFcs]

@[simp] theorem paramBytes_length (p : LaneParams) : p.bytes.length = 18 := by simp [LaneParams.bytes]

/-- READ-LANE's result is 47 bytes long (R167). -/
theorem laneReadout_length (s : State) (l : LaneId) : (s.laneReadout l).length = 47 := by
  simp [State.laneReadout]

@[simp] theorem windowBytes_length (w : MatchWindow) : w.bytes.length = 14 := by simp [MatchWindow.bytes]

/-- WRITE-CLASS and READ-CLASS return 15 bytes. -/
theorem classReadout_length (s : State) (i : Fin 64) : (s.classReadout i).length = 15 := by
  simp [State.classReadout]

theorem engineBytes_length (p : Probe) : p.engineBytes.length = 9 := by
  unfold Probe.engineBytes
  split <;> simp

theorem stagedBytes_length (t : Timer) : t.stagedBytes.length = 5 := by
  unfold Timer.stagedBytes
  split <;> simp

/-- The probe queue takes 17 bytes while it holds at most 8 requests (R143). -/
theorem queueBytes_length (p : Probe) (h : p.queue.length ≤ 8) : p.queueBytes.length = 17 := by
  have he : (p.queue.flatMap fun r => [BitVec.ofNat 8 r.lane.val, r.kind.code]).length = 2 * p.queue.length := by
    induction p.queue with
    | nil => rfl
    | cons r rest ih => simp [List.flatMap_cons, ih]; omega
  simp only [Probe.queueBytes, List.length_append, beBytes_length, zeros_length, he]
  omega

/-- READ-CHIP's result is 67 bytes long (R163). -/
theorem chipReadout_length (s : State) (h : s.probe.queue.length ≤ 8) : s.chipReadout.length = 67 := by
  simp [State.chipReadout, engineBytes_length, stagedBytes_length, queueBytes_length _ h, allLanes]

theorem beNat_foldl (bs : List Byte) (a : Nat) :
    bs.foldl (fun acc b => acc * 256 + b.toNat) a = a * 256 ^ bs.length + beNat bs := by
  induction bs generalizing a with
  | nil => simp [beNat]
  | cons b rest ih =>
    have h0 := ih (0 * 256 + b.toNat)
    simp only [beNat, List.foldl_cons, List.length_cons] at *
    rw [ih, h0]
    rw [Nat.pow_succ]
    ring

/-- A field holds less than 256 to the number of its bytes. -/
theorem beNat_lt (bs : List Byte) : beNat bs < 256 ^ bs.length := by
  induction bs with
  | nil => simp [beNat]
  | cons b rest ih =>
    have e : beNat (b :: rest) = b.toNat * 256 ^ rest.length + beNat rest := by
      have := beNat_foldl rest (0 * 256 + b.toNat)
      simpa [beNat] using this
    rw [e, List.length_cons, Nat.pow_succ]
    have hb : b.toNat < 256 := b.isLt
    have : b.toNat * 256 ^ rest.length ≤ 255 * 256 ^ rest.length := Nat.mul_le_mul_right _ (by omega)
    omega

theorem fieldAt_lt (bs : List Byte) (off n : Nat) : fieldAt bs off n < 256 ^ n := by
  have h := beNat_lt (bytesAt bs off n)
  have hl : (bytesAt bs off n).length ≤ n := by simp only [bytesAt, List.length_take]; omega
  exact Nat.lt_of_lt_of_le h (Nat.pow_le_pow_right (by omega) hl)

/-- What is written most significant byte first reads back, modulo the field's range (R182). -/
theorem beNat_beBytes (n v : Nat) : beNat (beBytes n v) = v % 256 ^ n := by
  induction n with
  | zero => simp [beBytes, beNat, Nat.mod_one]
  | succ n ih =>
    have e : beNat (beBytes (n + 1) v) = (BitVec.ofNat 8 (v / 256 ^ n)).toNat * 256 ^ n + beNat (beBytes n v) := by
      have := beNat_foldl (beBytes n v) (0 * 256 + (BitVec.ofNat 8 (v / 256 ^ n)).toNat)
      simpa [beNat, beBytes] using this
    have h8 : (2 : Nat) ^ 8 = 256 := by decide
    rw [e, ih, BitVec.toNat_ofNat, h8, Nat.pow_succ, Nat.mod_mul, Nat.mul_comm, Nat.add_comm]

end Sys2Proof.Machine
end

