-- ==== Sys2Proof/Laws/Frames.lean ====
section
/-! SUPPORT. Frames that carry their FCS are good frames, and what the lane path does with a good frame (R2 to R14). -/

namespace Sys2Proof.Machine

/-- Contents of 60 to 9212 bytes with their FCS are a good frame. -/
theorem goodFrame_withFcs (c : List Byte) (h1 : 60 ≤ c.length) (h2 : c.length ≤ 9212) : goodFrame (withFcs c) := by
  constructor
  · simp only [isOversize, withFcs_length, Config.maxFrame, decide_eq_false_iff_not]
    omega
  · have hf := withFcs_good c
    simp only [isBad, Bool.or_eq_false_iff, decide_eq_false_iff_not, hf]
    exact ⟨by rw [withFcs_length]; simp only [Config.minFrame]; omega, fun h => h rfl⟩

/-- The lane path's handling of a good frame from the fabric side. -/
theorem inboundFrame_good {s : State} {l : LaneId} {f : Frame} (h : goodFrame f) :
    s.inboundFrame l f =
      if controlEnabled s.straps.ctlsel l && isControl s.control.etherType s.straps.addr f then s.receiveControl l f
      else
        match segmentOf .inbound f with
        | none => (s.sendStation l f).countLane l .opaqueFrames
        | some g => (s.sendStation l f).inboundSegment l g := by
  simp only [State.inboundFrame, h.1, h.2, Bool.false_eq_true, if_false] <;> rfl

/-- The lane path's handling of a good frame from the station side. -/
theorem outboundFrame_good {s : State} {l : LaneId} {f : Frame} (h : goodFrame f) :
    s.outboundFrame l f =
      if isControl s.control.etherType s.straps.addr f then s.countLane l .stationCtl
      else
        match segmentOf .outbound f with
        | none => (s.makeReady l f).countLane l .opaqueFrames
        | some g => s.outboundSegment l g f := by
  simp only [State.outboundFrame, h.1, h.2, Bool.false_eq_true, if_false] <;> rfl

/-- A TCP segment from the station side goes through the four stages of R14. -/
theorem outboundFrame_tcp {s : State} {l : LaneId} {f : Frame} {g : Segment} (h : s.outboundTcp f g) :
    s.outboundFrame l f = s.outboundSegment l g f := by
  rw [outboundFrame_good h.1, h.2.1, h.2.2]
  rfl

/-- A TCP segment from the fabric side is forwarded and reported (R13). -/
theorem inboundFrame_tcp {s : State} {l : LaneId} {f : Frame} {g : Segment} (h : s.inboundTcp l f g) :
    s.inboundFrame l f = (s.sendStation l f).inboundSegment l g := by
  rw [inboundFrame_good h.1, h.2.1, h.2.2]
  rfl

end Sys2Proof.Machine
end

