-- ==== Sys2Proof/Laws/LaneEvent.lean ====
section
/-! SUPPORT. Each shared operation of the flow table, the grant engine, the gate, the rewriter and the arbiter is an
event of its lane: it changes that lane, that lane's records and the latch, and nothing else. -/

namespace Sys2Proof.Machine

theorem State.LaneEvent.refl (l : LaneId) (s : State) : s.LaneEvent l s :=
  ⟨fun _ _ => rfl, fun _ _ => rfl, fun _ h => h, rfl⟩

theorem State.LaneEvent.trans {l : LaneId} {s t u : State} (h1 : s.LaneEvent l t) (h2 : t.LaneEvent l u) :
    s.LaneEvent l u where
  lanes l' h := (h2.lanes l' h).trans (h1.lanes l' h)
  records l' h := (h2.records l' h).trans (h1.records l' h)
  latch e h := h2.latch e (h1.latch e h)
  rest := by
    have e2 := h2.rest
    have e1 := h1.rest
    rw [← e1, ← e2]

theorem laneEvent_modLane (s : State) (l : LaneId) (f : LaneState → LaneState) : s.LaneEvent l (s.modLane l f) :=
  ⟨fun _ h => by simp [h], fun _ _ => rfl, fun _ h => h, rfl⟩

theorem laneEvent_countLane (s : State) (l : LaneId) (c : LaneCounter) : s.LaneEvent l (s.countLane l c) :=
  laneEvent_modLane s l _

theorem laneEvent_makeReady (s : State) (l : LaneId) (f : Frame) : s.LaneEvent l (s.makeReady l f) :=
  laneEvent_modLane s l _

theorem laneEvent_latchEvent (s : State) (l : LaneId) (e : Event) : s.LaneEvent l (s.latchEvent e) :=
  ⟨fun _ _ => rfl, fun _ _ => rfl, fun e' h => s.latched_latchEvent e e' h, rfl⟩

theorem laneEvent_latchOverload (s : State) (l : LaneId) : s.LaneEvent l (s.latchOverload l) := by
  unfold State.latchOverload
  split
  · exact laneEvent_latchEvent s l _
  · exact State.LaneEvent.refl l s

/-- A change of the pool that keeps the records of every other lane. -/
theorem laneEvent_pool (s : State) (l : LaneId) (p : List FlowRecord)
    (h : ∀ l' : LaneId, l' ≠ l → p.filter (fun r => r.lane = l') = s.pool.filter fun r => r.lane = l') :
    s.LaneEvent l { s with pool := p } :=
  ⟨fun _ _ => rfl, fun l' h' => h l' h', fun _ h => h, rfl⟩

/-- Filtering for one lane after a map that changes only another lane's records, and never their lane. -/
theorem filter_map_other (f : FlowRecord → FlowRecord) {l l' : LaneId} (h : l' ≠ l)
    (hl : ∀ r : FlowRecord, r.lane = l → (f r).lane = l) (ho : ∀ r : FlowRecord, r.lane ≠ l → f r = r)
    (pool : List FlowRecord) :
    (pool.map f).filter (fun r => r.lane = l') = pool.filter fun r => r.lane = l' := by
  induction pool with
  | nil => rfl
  | cons r rest ih =>
    by_cases hr : r.lane = l
    · have h1 : ¬ (f r).lane = l' := by rw [hl r hr]; exact fun e => h e.symm
      have h2 : ¬ r.lane = l' := by rw [hr]; exact fun e => h e.symm
      simp [h1, h2, ih]
    · simp [List.filter_cons, ho r hr, ih]

/-- Filtering for one lane after a filterMap that changes or removes only another lane's records. -/
theorem filter_filterMap_other (f : FlowRecord → Option FlowRecord) {l l' : LaneId} (h : l' ≠ l)
    (hl : ∀ r r' : FlowRecord, r.lane = l → f r = some r' → r'.lane = l)
    (ho : ∀ r : FlowRecord, r.lane ≠ l → f r = some r) (pool : List FlowRecord) :
    (pool.filterMap f).filter (fun r => r.lane = l') = pool.filter fun r => r.lane = l' := by
  induction pool with
  | nil => rfl
  | cons r rest ih =>
    by_cases hr : r.lane = l
    · have h2 : ¬ r.lane = l' := by rw [hr]; exact fun e => h e.symm
      cases hf : f r with
      | none => simp [hf, h2, ih]
      | some r' =>
        have h1 : ¬ r'.lane = l' := by rw [hl r r' hr hf]; exact fun e => h e.symm
        simp [hf, h1, h2, ih]
    · simp [List.filter_cons, ho r hr, ih]

/-- Inserting a record leaves the records of every other lane. -/
theorem filter_insertRecord_other (x : FlowRecord) {l' : LaneId} (h : l' ≠ x.lane) (pool : List FlowRecord) :
    (insertRecord x pool).filter (fun r => r.lane = l') = pool.filter fun r => r.lane = l' := by
  have hx : ¬ x.lane = l' := fun e => h e.symm
  induction pool with
  | nil => simp [insertRecord, hx]
  | cons r rest ih =>
    unfold insertRecord
    split
    · simp [List.filter_cons, hx]
    · simp [List.filter_cons, ih]

theorem laneEvent_modRecord (s : State) (l : LaneId) (key : FlowKey) (f : FlowRecord → FlowRecord)
    (hf : ∀ r : FlowRecord, (f r).lane = r.lane) : s.LaneEvent l (s.modRecord l key f) := by
  refine laneEvent_pool s l _ fun l' h => filter_map_other _ h ?_ ?_ s.pool
  · intro r hr
    split
    · rw [hf, hr]
    · exact hr
  · intro r hr
    simp [hr]

theorem laneEvent_removeLaneRecords (s : State) (l : LaneId) : s.LaneEvent l (s.removeLaneRecords l) := by
  refine laneEvent_pool s l _ fun l' h => ?_
  rw [List.filter_filter]
  congr 1
  funext r
  by_cases hr : r.lane = l'
  · simp [hr, h]
  · simp [hr]

theorem laneEvent_removeRecord (s : State) (l : LaneId) (key : FlowKey) : s.LaneEvent l (s.removeRecord l key) := by
  refine laneEvent_pool s l _ fun l' h => ?_
  rw [List.filter_filter]
  congr 1
  funext r
  by_cases hr : r.lane = l'
  · simp [hr, h]
  · simp [hr]

/-! ### The flow table -/

theorem laneEvent_createRecord (s : State) (l : LaneId) (key : FlowKey) (st : RecordState) (d : ClassDecision) :
    s.LaneEvent l (s.createRecord l key st d) := by
  unfold State.createRecord
  split
  · exact State.LaneEvent.refl l s
  · split
    · exact laneEvent_pool s l _ fun l' h => filter_insertRecord_other _ h s.pool
    · exact laneEvent_countLane s l _

theorem FlowRecord.onSyn_lane (r : FlowRecord) (g : Segment) (d : ClassDecision) : (r.onSyn g d).lane = r.lane := by
  unfold FlowRecord.onSyn FlowRecord.reuse
  split <;> (try split) <;> rfl

theorem laneEvent_stepSyn (s : State) (l : LaneId) (g : Segment) (d : ClassDecision) :
    s.LaneEvent l (s.stepSyn l g d) := by
  unfold State.stepSyn
  split
  · exact State.LaneEvent.refl l s
  · split
    · exact laneEvent_modRecord s l _ _ fun r => r.onSyn_lane g d
    · split
      · exact State.LaneEvent.refl l s
      · exact laneEvent_createRecord s l _ _ _

theorem laneEvent_stepClose (s : State) (l : LaneId) (g : Segment) : s.LaneEvent l (s.stepClose l g) := by
  unfold State.stepClose
  split
  · exact laneEvent_modRecord s l _ _ fun _ => rfl
  · exact State.LaneEvent.refl l s

theorem laneEvent_stepPayload (s : State) (l : LaneId) (g : Segment) (d : ClassDecision) :
    s.LaneEvent l (s.stepPayload l g d) := by
  unfold State.stepPayload
  split
  · dsimp only
    split
    · exact (laneEvent_createRecord s l _ _ _).trans (laneEvent_modRecord _ l _ _ fun _ => rfl)
    · exact laneEvent_modRecord s l _ _ fun _ => rfl
  · exact State.LaneEvent.refl l s

theorem laneEvent_reportSegment (s : State) (l : LaneId) (g : Segment) : s.LaneEvent l (s.reportSegment l g) :=
  (((laneEvent_stepSyn s l g _).trans (laneEvent_stepClose _ l g)).trans (laneEvent_stepPayload _ l g _)).trans
    (laneEvent_modRecord _ l _ _ fun _ => rfl)

theorem laneEvent_chargeRecord (s : State) (l : LaneId) (key : FlowKey) (d : ClassDecision) :
    s.LaneEvent l (s.chargeRecord l key d) := by
  unfold State.chargeRecord
  dsimp only
  split
  · exact (laneEvent_createRecord s l _ _ _).trans (laneEvent_modRecord _ l _ _ fun _ => rfl)
  · exact laneEvent_modRecord s l _ _ fun _ => rfl

theorem FlowRecord.limits_eq (r r' : FlowRecord) (p : LaneParams) (h : r.limits p = some r') :
    r' = (if p.timeout ≤ r.idleTicks then { r with expected := 0, requestOpen := false } else r) := by
  unfold FlowRecord.limits at h
  dsimp only at h
  repeat' (split at h <;> try contradiction)
  all_goals simp_all

theorem FlowRecord.limits_lane (r r' : FlowRecord) (p : LaneParams) (h : r.limits p = some r') : r'.lane = r.lane := by
  rw [FlowRecord.limits_eq r r' p h]
  split <;> rfl

theorem laneEvent_ageLane (s : State) (l : LaneId) : s.LaneEvent l (s.ageLane l) := by
  refine laneEvent_pool s l _ fun l' h => filter_filterMap_other _ h ?_ ?_ s.pool
  · intro r r' hr hf
    rw [if_pos hr] at hf
    rw [FlowRecord.limits_lane _ _ _ hf]
    exact hr
  · intro r hr
    simp [hr]

/-! ### The grant engine -/

theorem laneEvent_recompute (s : State) (l : LaneId) : s.LaneEvent l (s.recompute l) := by
  refine State.LaneEvent.trans (t := s.writeGrants l _) ?_
    ((laneEvent_modLane _ l _).trans (laneEvent_latchOverload _ l))
  refine laneEvent_pool s l _ fun l' h => filter_map_other _ h ?_ ?_ s.pool
  · intro r hr
    simp [hr]
  · intro r hr
    simp [hr]

/-- What a recompute leaves of its own lane: R_eff, B, n_max and the regime are written, nothing else (R87). -/
theorem recompute_lane (s : State) (l : LaneId) :
    (s.recompute l).lane l =
      (let p := (s.lane l).params
       let rEff := effectiveRate p (s.lane l).rMeas
       { s.lane l with
         rEff := rEff
         budget := budgetOf p rEff
         nMax := nMaxOf p (budgetOf p rEff)
         regime := regimeOf p (budgetOf p rEff) (s.n l) }) := by
  simp only [State.recompute, State.lane_latchOverload, State.lane_modLane_same]
  rfl

theorem laneEvent_afterActiveSet (s : State) (l : LaneId) (b : State) : s.LaneEvent l (s.afterActiveSet l b) := by
  unfold State.afterActiveSet
  split
  · exact laneEvent_recompute s l
  · exact State.LaneEvent.refl l s

/-! ### The gate -/

theorem laneEvent_charge (s : State) (l : LaneId) (key : FlowKey) (d : ClassDecision) :
    s.LaneEvent l (s.charge l key d) :=
  (laneEvent_chargeRecord s l key d).trans (laneEvent_afterActiveSet _ l s)

theorem laneEvent_account (s : State) (l : LaneId) (e : QueueEntry) : s.LaneEvent l (s.account l e) := by
  unfold State.account
  split
  · exact laneEvent_charge s l _ _
  · exact State.LaneEvent.refl l s

theorem laneEvent_setEdge (s : State) (l : LaneId) (key : FlowKey) (edge : SeqNum) :
    s.LaneEvent l (s.setEdge l key edge) := laneEvent_modRecord s l _ _ fun _ => rfl

theorem laneEvent_rewrite (s : State) (l : LaneId) (f : Frame) : s.LaneEvent l (s.rewrite l f).2 := by
  unfold State.rewrite
  split
  · exact State.LaneEvent.refl l s
  · split
    · exact State.LaneEvent.refl l s
    · exact laneEvent_countLane s l _
    · exact laneEvent_setEdge s l _ _
    · exact (laneEvent_setEdge s l _ _).trans (laneEvent_countLane _ l _)

theorem laneEvent_passOut (s : State) (l : LaneId) (f : Frame) : s.LaneEvent l (s.passOut l f) := by
  unfold State.passOut
  split
  · exact (laneEvent_rewrite s l f).trans (laneEvent_makeReady _ l _)
  · exact laneEvent_makeReady s l f

theorem laneEvent_releaseHead (s : State) (l : LaneId) : s.LaneEvent l (s.releaseHead l) := by
  unfold State.releaseHead
  split
  · exact State.LaneEvent.refl l s
  · exact ((laneEvent_modLane s l _).trans (laneEvent_account _ l _)).trans (laneEvent_passOut _ l _)

theorem laneEvent_releaseFirst (n : Nat) (l : LaneId) : ∀ s : State, s.LaneEvent l (State.releaseFirst n l s) := by
  induction n with
  | zero => exact fun s => State.LaneEvent.refl l s
  | succ n ih => exact fun s => (laneEvent_releaseHead s l).trans (ih _)

theorem laneEvent_releaseAll (s : State) (l : LaneId) : s.LaneEvent l (s.releaseAll l) :=
  laneEvent_releaseFirst _ l s

theorem laneEvent_reevaluateLoop (force : Bool) (n : Nat) (l : LaneId) :
    ∀ s : State, s.LaneEvent l (State.reevaluateLoop force n l s) := by
  induction n with
  | zero => exact fun s => State.LaneEvent.refl l s
  | succ n ih =>
    intro s
    unfold State.reevaluateLoop
    split
    · exact State.LaneEvent.refl l s
    · split
      · exact (laneEvent_releaseHead s l).trans (ih _)
      · split
        · exact ((laneEvent_releaseHead s l).trans (laneEvent_countLane _ l _)).trans (ih _)
        · split
          · exact (laneEvent_releaseHead s l).trans (ih _)
          · exact State.LaneEvent.refl l s

theorem laneEvent_reevaluate (s : State) (l : LaneId) : s.LaneEvent l (s.reevaluate l) := by
  unfold State.reevaluate
  split
  · exact laneEvent_reevaluateLoop _ _ l s
  · exact State.LaneEvent.refl l s

theorem laneEvent_gateTickLane (l : LaneId) (s : State) : s.LaneEvent l (State.gateTickLane l s) := by
  unfold State.gateTickLane
  split
  · dsimp only
    split
    · exact (laneEvent_modLane s l _).trans (laneEvent_reevaluateLoop _ _ l _)
    · exact laneEvent_modLane s l _
  · exact State.LaneEvent.refl l s

theorem laneEvent_handOn (s : State) (l : LaneId) (b : State) : s.LaneEvent l (s.handOn l b) := by
  unfold State.handOn
  dsimp only
  split
  · exact (laneEvent_afterActiveSet s l b).trans (laneEvent_reevaluate _ l)
  · exact laneEvent_afterActiveSet s l b

theorem laneEvent_recomputeHandOn (s : State) (l : LaneId) : s.LaneEvent l (s.recomputeHandOn l) := by
  unfold State.recomputeHandOn
  dsimp only
  split
  · exact (laneEvent_recompute s l).trans (laneEvent_reevaluate _ l)
  · exact laneEvent_recompute s l

theorem laneEvent_flowTickLane (l : LaneId) (s : State) : s.LaneEvent l (State.flowTickLane l s) := by
  unfold State.flowTickLane
  split
  · exact (laneEvent_ageLane s l).trans (laneEvent_handOn _ l s)
  · exact State.LaneEvent.refl l s

theorem laneEvent_finishDrain (s : State) (l : LaneId) : s.LaneEvent l (s.finishDrain l) := by
  unfold State.finishDrain
  split
  · exact laneEvent_modLane s l _
  · exact State.LaneEvent.refl l s

theorem laneEvent_drainLoop (n : Nat) (l : LaneId) : ∀ s : State, s.LaneEvent l (State.drainLoop n l s) := by
  induction n with
  | zero => exact fun s => State.LaneEvent.refl l s
  | succ n ih =>
    intro s
    unfold State.drainLoop
    split
    · exact ((laneEvent_releaseHead s l).trans (laneEvent_finishDrain _ l)).trans (ih _)
    · exact State.LaneEvent.refl l s

theorem laneEvent_drain (s : State) (l : LaneId) : s.LaneEvent l (s.drain l) := laneEvent_drainLoop _ l s

theorem laneEvent_hold (s : State) (l : LaneId) (kind : EntryKind) (key : FlowKey) (f : Frame) :
    s.LaneEvent l (s.hold l kind key f) := by
  unfold State.hold
  split
  · exact (laneEvent_modLane s l _).trans (laneEvent_countLane _ l _)
  · unfold State.overflowFlush
    exact (((((laneEvent_releaseAll s l).trans (laneEvent_account _ l _)).trans (laneEvent_passOut _ l f)).trans
      (laneEvent_countLane _ l _)).trans (laneEvent_latchEvent _ l _)).trans (laneEvent_finishDrain _ l)

theorem laneEvent_gateArrival (s : State) (l : LaneId) (g : Segment) (f : Frame) (start : Bool) (d : ClassDecision) :
    s.LaneEvent l (s.gateArrival l g f start d) := by
  unfold State.gateArrival
  split
  · exact laneEvent_hold s l _ _ f
  · split
    · split
      · exact laneEvent_hold s l _ _ f
      · exact (laneEvent_charge s l _ d).trans (laneEvent_passOut _ l f)
    · exact laneEvent_passOut s l f

theorem laneEvent_outboundSegment (s : State) (l : LaneId) (g : Segment) (f : Frame) :
    s.LaneEvent l (s.outboundSegment l g f) := by
  unfold State.outboundSegment
  split
  · exact ((laneEvent_reportSegment s l g).trans (laneEvent_handOn _ l s)).trans (laneEvent_gateArrival _ l g f _ _)
  · exact laneEvent_makeReady s l f

/-- The whole handling of an outbound frame is an event of its lane. -/
theorem laneEvent_outboundFrame (s : State) (l : LaneId) (f : Frame) : s.LaneEvent l (s.outboundFrame l f) := by
  unfold State.outboundFrame
  split
  · exact laneEvent_countLane s l _
  · split
    · exact (laneEvent_makeReady s l f).trans (laneEvent_countLane _ l _)
    · split
      · exact laneEvent_countLane s l _
      · split
        · exact (laneEvent_makeReady s l f).trans (laneEvent_countLane _ l _)
        · exact laneEvent_outboundSegment s l _ f

end Sys2Proof.Machine
end

