-- ==== Sys2Proof/Laws/Gate.lean ====
section
/-! SUPPORT. What accounting, rewriting and a release leave of their own lane, said once: the mode, the parameters, the
queue behind the head and the arbiter (R106, R107, R122). -/

namespace Sys2Proof.Machine

/-- What accounting on a lane keeps of it: all but R_eff, B, n_max, the regime and the counters. -/
structure LaneState.Accounted (x y : LaneState) : Prop where
  mode : y.mode = x.mode
  target : y.target = x.target
  params : y.params = x.params
  rMeas : y.rMeas = x.rMeas
  queue : y.queue = x.queue
  intervalCount : y.intervalCount = x.intervalCount
  output : y.output = x.output
  ready : y.ready = x.ready
  response : y.response = x.response

theorem LaneState.Accounted.refl (x : LaneState) : x.Accounted x := ⟨rfl, rfl, rfl, rfl, rfl, rfl, rfl, rfl, rfl⟩

theorem LaneState.Accounted.trans {x y z : LaneState} (h1 : x.Accounted y) (h2 : y.Accounted z) : x.Accounted z :=
  ⟨h2.mode.trans h1.mode, h2.target.trans h1.target, h2.params.trans h1.params, h2.rMeas.trans h1.rMeas,
    h2.queue.trans h1.queue, h2.intervalCount.trans h1.intervalCount, h2.output.trans h1.output,
    h2.ready.trans h1.ready, h2.response.trans h1.response⟩

theorem accounted_countLane (s : State) (l : LaneId) (c : LaneCounter) :
    (s.lane l).Accounted ((s.countLane l c).lane l) := by
  rw [State.lane_countLane_same]
  exact ⟨rfl, rfl, rfl, rfl, rfl, rfl, rfl, rfl, rfl⟩

theorem accounted_createRecord (s : State) (l : LaneId) (key : FlowKey) (st : RecordState) (d : ClassDecision) :
    (s.lane l).Accounted ((s.createRecord l key st d).lane l) := by
  unfold State.createRecord
  split
  · exact LaneState.Accounted.refl _
  · split
    · exact LaneState.Accounted.refl _
    · exact accounted_countLane s l _

theorem accounted_recompute (s : State) (l : LaneId) : (s.lane l).Accounted ((s.recompute l).lane l) := by
  rw [recompute_lane]
  exact ⟨rfl, rfl, rfl, rfl, rfl, rfl, rfl, rfl, rfl⟩

theorem accounted_afterActiveSet (s : State) (l : LaneId) (b : State) :
    (s.lane l).Accounted ((s.afterActiveSet l b).lane l) := by
  unfold State.afterActiveSet
  split
  · exact accounted_recompute s l
  · exact LaneState.Accounted.refl _

theorem accounted_stepSyn (s : State) (l : LaneId) (g : Segment) (d : ClassDecision) :
    (s.lane l).Accounted ((s.stepSyn l g d).lane l) := by
  unfold State.stepSyn
  split
  · exact LaneState.Accounted.refl _
  · split
    · exact LaneState.Accounted.refl _
    · split
      · exact LaneState.Accounted.refl _
      · exact accounted_createRecord s l _ _ _

theorem accounted_stepClose (s : State) (l : LaneId) (g : Segment) :
    (s.lane l).Accounted ((s.stepClose l g).lane l) := by
  unfold State.stepClose
  split <;> exact LaneState.Accounted.refl _

theorem accounted_stepPayload (s : State) (l : LaneId) (g : Segment) (d : ClassDecision) :
    (s.lane l).Accounted ((s.stepPayload l g d).lane l) := by
  unfold State.stepPayload
  split
  · dsimp only
    split
    · exact accounted_createRecord s l _ _ _
    · exact LaneState.Accounted.refl _
  · exact LaneState.Accounted.refl _

/-- A segment report changes nothing of its lane but a counter. -/
theorem accounted_reportSegment (s : State) (l : LaneId) (g : Segment) :
    (s.lane l).Accounted ((s.reportSegment l g).lane l) :=
  ((accounted_stepSyn s l g _).trans (accounted_stepClose _ l g)).trans (accounted_stepPayload _ l g _)

theorem accounted_chargeRecord (s : State) (l : LaneId) (key : FlowKey) (d : ClassDecision) :
    (s.lane l).Accounted ((s.chargeRecord l key d).lane l) := by
  unfold State.chargeRecord
  dsimp only
  split
  · exact accounted_createRecord s l _ _ _
  · exact LaneState.Accounted.refl _

theorem accounted_charge (s : State) (l : LaneId) (key : FlowKey) (d : ClassDecision) :
    (s.lane l).Accounted ((s.charge l key d).lane l) :=
  (accounted_chargeRecord s l key d).trans (accounted_afterActiveSet _ l s)

theorem accounted_account (s : State) (l : LaneId) (e : QueueEntry) :
    (s.lane l).Accounted ((s.account l e).lane l) := by
  unfold State.account
  split
  · exact accounted_charge s l _ _
  · exact LaneState.Accounted.refl _

theorem accounted_rewrite (s : State) (l : LaneId) (f : Frame) :
    (s.lane l).Accounted ((s.rewrite l f).2.lane l) := by
  unfold State.rewrite
  split
  · exact LaneState.Accounted.refl _
  · split
    · exact LaneState.Accounted.refl _
    · exact accounted_countLane s l _
    · exact LaneState.Accounted.refl _
    · exact accounted_countLane (s.setEdge l _ _) l _

/-! ### Ready frames -/

/-- Starting the head of the ready list moves it to the output and changes nothing else. -/
theorem startReady_frames (x : LaneState) :
    x.startReady.output.toList ++ x.startReady.response.toList ++ x.startReady.ready =
      x.output.toList ++ x.response.toList ++ x.ready := by
  unfold LaneState.startReady
  split
  · rename_i h1 h2 h3
    simp [h1, h2, h3]
  · rfl

@[simp] theorem startReady_mode (x : LaneState) : x.startReady.mode = x.mode := by
  unfold LaneState.startReady; split <;> rfl

@[simp] theorem startReady_target (x : LaneState) : x.startReady.target = x.target := by
  unfold LaneState.startReady; split <;> rfl

@[simp] theorem startReady_params (x : LaneState) : x.startReady.params = x.params := by
  unfold LaneState.startReady; split <;> rfl

@[simp] theorem startReady_rMeas (x : LaneState) : x.startReady.rMeas = x.rMeas := by
  unfold LaneState.startReady; split <;> rfl

@[simp] theorem startReady_rEff (x : LaneState) : x.startReady.rEff = x.rEff := by
  unfold LaneState.startReady; split <;> rfl

@[simp] theorem startReady_budget (x : LaneState) : x.startReady.budget = x.budget := by
  unfold LaneState.startReady; split <;> rfl

@[simp] theorem startReady_nMax (x : LaneState) : x.startReady.nMax = x.nMax := by
  unfold LaneState.startReady; split <;> rfl

@[simp] theorem startReady_regime (x : LaneState) : x.startReady.regime = x.regime := by
  unfold LaneState.startReady; split <;> rfl

@[simp] theorem startReady_queue (x : LaneState) : x.startReady.queue = x.queue := by
  unfold LaneState.startReady; split <;> rfl

@[simp] theorem startReady_counters (x : LaneState) : x.startReady.counters = x.counters := by
  unfold LaneState.startReady; split <;> rfl

@[simp] theorem startReady_intervalCount (x : LaneState) : x.startReady.intervalCount = x.intervalCount := by
  unfold LaneState.startReady; split <;> rfl

@[simp] theorem startReady_response (x : LaneState) : x.startReady.response = x.response := by
  unfold LaneState.startReady; split <;> rfl

/-- A frame that becomes ready goes behind every frame of its lane's arbiter (R16). -/
theorem makeReady_frames (s : State) (l : LaneId) (f : Frame) :
    ((s.makeReady l f).lane l).output.toList ++ ((s.makeReady l f).lane l).response.toList ++
        ((s.makeReady l f).lane l).ready =
      (s.lane l).output.toList ++ (s.lane l).response.toList ++ (s.lane l).ready ++ [f] := by
  simp only [State.makeReady, State.lane_modLane_same, startReady_frames]
  simp

theorem makeReady_queue (s : State) (l : LaneId) (f : Frame) :
    ((s.makeReady l f).lane l).queue = (s.lane l).queue ∧ ((s.makeReady l f).lane l).mode = (s.lane l).mode := by
  simp [State.makeReady]

/-- A frame that passes out joins the lane's arbiter as the rewriter left it; the queue and the mode stand. -/
theorem passOut_spec (s : State) (l : LaneId) (f : Frame) :
    ((s.passOut l f).lane l).queue = (s.lane l).queue ∧ ((s.passOut l f).lane l).mode = (s.lane l).mode ∧
      ∃ f' : Frame, (f' = f ∨ f' = (s.rewrite l f).1) ∧
        ((s.passOut l f).lane l).output.toList ++ ((s.passOut l f).lane l).response.toList ++
            ((s.passOut l f).lane l).ready =
          (s.lane l).output.toList ++ (s.lane l).response.toList ++ (s.lane l).ready ++ [f'] := by
  unfold State.passOut
  split
  · have a := accounted_rewrite s l f
    have q := makeReady_queue (s.rewrite l f).2 l (s.rewrite l f).1
    refine ⟨q.1.trans a.queue, q.2.trans a.mode, (s.rewrite l f).1, Or.inr rfl, ?_⟩
    rw [makeReady_frames, a.output, a.response, a.ready]
  · have q := makeReady_queue s l f
    exact ⟨q.1, q.2, f, Or.inl rfl, makeReady_frames s l f⟩

/-- A release takes the head off the queue and puts one frame behind the lane's arbiter (R106). -/
theorem releaseHead_spec (s : State) (l : LaneId) (e : QueueEntry) (rest : List QueueEntry)
    (h : (s.lane l).queue = e :: rest) :
    ((s.releaseHead l).lane l).queue = rest ∧ ((s.releaseHead l).lane l).mode = (s.lane l).mode ∧
      ∃ f' : Frame, ((s.releaseHead l).lane l).output.toList ++ ((s.releaseHead l).lane l).response.toList ++
            ((s.releaseHead l).lane l).ready =
          (s.lane l).output.toList ++ (s.lane l).response.toList ++ (s.lane l).ready ++ [f'] := by
  unfold State.releaseHead
  rw [h]
  have a := accounted_account (s.modLane l fun x => { x with queue := rest }) l e
  obtain ⟨hq, hm, f', _, hf⟩ := passOut_spec ((s.modLane l fun x => { x with queue := rest }).account l e) l e.frame
  simp only [State.lane_modLane_same] at a
  refine ⟨hq.trans a.queue, hm.trans a.mode, f', ?_⟩
  rw [hf, a.output, a.response, a.ready]

/-- Releasing `n` entries drops that many from the head of the queue. -/
theorem releaseFirst_queue (n : Nat) (l : LaneId) : ∀ s : State,
    ((State.releaseFirst n l s).lane l).queue = (s.lane l).queue.drop n ∧
      ((State.releaseFirst n l s).lane l).mode = (s.lane l).mode := by
  induction n with
  | zero => exact fun s => ⟨rfl, rfl⟩
  | succ n ih =>
    intro s
    unfold State.releaseFirst
    obtain ⟨hq, hm⟩ := ih (s.releaseHead l)
    cases hc : (s.lane l).queue with
    | nil =>
      have e : s.releaseHead l = s := by unfold State.releaseHead; rw [hc]
      rw [e] at hq hm ⊢
      rw [hq, hc]
      simp [hm]
    | cons e rest =>
      obtain ⟨h1, h2, _⟩ := releaseHead_spec s l e rest hc
      rw [hq, h1, hm, h2]
      simp

/-- RELEASE-LANE's and the flush's releases leave the queue empty. -/
theorem releaseAll_queue (s : State) (l : LaneId) :
    ((s.releaseAll l).lane l).queue = [] ∧ ((s.releaseAll l).lane l).mode = (s.lane l).mode := by
  have h := releaseFirst_queue (s.lane l).queue.length l s
  simp only [List.drop_length] at h
  exact h

/-- A re-evaluation only takes entries off the head of the queue. -/
theorem reevaluateLoop_queue (force : Bool) (n : Nat) (l : LaneId) : ∀ s : State,
    ((State.reevaluateLoop force n l s).lane l).queue <:+ (s.lane l).queue ∧
      ((State.reevaluateLoop force n l s).lane l).mode = (s.lane l).mode := by
  induction n with
  | zero => exact fun s => ⟨List.suffix_refl _, rfl⟩
  | succ n ih =>
    intro s
    unfold State.reevaluateLoop
    split
    · exact ⟨List.suffix_refl _, rfl⟩
    · rename_i e rest hc
      obtain ⟨h1, h2, _⟩ := releaseHead_spec s l e rest hc
      have suf : ((s.releaseHead l).lane l).queue <:+ e :: rest := by rw [h1]; exact List.suffix_cons e rest
      split
      · obtain ⟨a, b⟩ := ih (s.releaseHead l)
        rw [hc]
        exact ⟨a.trans suf, b.trans h2⟩
      · split
        · obtain ⟨a, b⟩ := ih ((s.releaseHead l).countLane l .forced)
          simp only [State.lane_countLane_same] at a b
          rw [hc]
          exact ⟨a.trans suf, b.trans h2⟩
        · split
          · obtain ⟨a, b⟩ := ih (s.releaseHead l)
            rw [hc]
            exact ⟨a.trans suf, b.trans h2⟩
          · exact ⟨by rw [hc], rfl⟩

/-- On a lane that enforces, the release of the head is the one that Safety.lean spells. -/
theorem releaseHead_eq_releasing (s : State) (l : LaneId) (e : QueueEntry) (rest : List QueueEntry)
    (mode : (s.lane l).mode.enforcing = true) (h : (s.lane l).queue = e :: rest) :
    s.releaseHead l = s.releasing l e rest := by
  have a := (accounted_account (s.modLane l fun x => { x with queue := rest }) l e).mode
  simp only [State.lane_modLane_same] at a
  unfold State.releaseHead
  rw [h]
  refine (if_pos (a ▸ mode)).trans ?_
  unfold State.releasing State.account
  cases e.kind <;> exact rfl

/-- All that a re-evaluation of an ACTIVE lane can do: it takes the steps of R109 and R111 in their order. -/
theorem reevaluateLoop_reevaluated (force : Bool) (l : LaneId) (n : Nat) : ∀ s : State,
    (s.lane l).mode = .active → (s.lane l).queue.length ≤ n →
    ∃ released : List QueueEntry, s.Reevaluated force l released (State.reevaluateLoop force n l s) := by
  induction n with
  | zero => exact fun s _ h => ⟨[], .empty (List.eq_nil_of_length_eq_zero (Nat.le_zero.mp h))⟩
  | succ n ih =>
    intro s mode len
    unfold State.reevaluateLoop
    split
    · rename_i q
      exact ⟨[], .empty q⟩
    · rename_i e rest q
      have eq := releaseHead_eq_releasing s l e rest (by rw [mode]; rfl) q
      obtain ⟨hq, hm, _⟩ := releaseHead_spec s l e rest q
      rw [eq] at hq hm ⊢
      have len' : rest.length ≤ n := by rw [q] at len; exact Nat.le_of_succ_le_succ len
      split
      · rename_i k
        obtain ⟨released, r⟩ := ih (s.releasing l e rest) (hm.trans mode) (by rw [hq]; exact len')
        exact ⟨e :: released, .follower q k r⟩
      · rename_i d k
        split
        · rename_i f
          simp only [Bool.and_eq_true, decide_eq_true_eq] at f
          obtain ⟨released, r⟩ := ih ((s.releasing l e rest).countLane l .forced)
            (by rw [State.lane_countLane_same]; exact hm.trans mode)
            (by rw [State.lane_countLane_same]; exact hq.symm ▸ len')
          exact ⟨e :: released, .forced q k f.1 f.2 r⟩
        · rename_i f
          have below : force = true → e.heldTicks < (s.lane l).params.holdLimit := by
            intro hf
            simpa [hf] using f
          split
          · rename_i pass
            obtain ⟨released, r⟩ := ih (s.releasing l e rest) (hm.trans mode) (by rw [hq]; exact len')
            exact ⟨e :: released, .admitted q k below pass r⟩
          · rename_i fail
            exact ⟨[], .blocked q k (Bool.eq_false_iff.mpr fail) below⟩

/-! ### Releases in a row -/

theorem chargesTo_append (key : FlowKey) (a b : List QueueEntry) :
    chargesTo key (a ++ b) = chargesTo key a ++ chargesTo key b := List.filterMap_append

theorem makersFor_nil (key : FlowKey) : makersFor key [] = [] := rfl

/-- What a later release may make, where the earlier entries make nothing. -/
theorem makersFor_append_of_nil {key : FlowKey} {a : List QueueEntry} (b : List QueueEntry)
    (h : makersFor key a = []) : makersFor key (a ++ b) = makersFor key b := by
  unfold makersFor at h ⊢
  rw [List.filterMap_append, List.dropWhile_append, h]
  rfl

/-- Once some earlier entry may make a record, every later decision of its connection follows it. -/
theorem makersFor_append_of_cons {key : FlowKey} {a : List QueueEntry} (b : List QueueEntry)
    (h : makersFor key a ≠ []) : (makersFor key (a ++ b)).map (·.cost) =
      (makersFor key a).map (·.cost) ++ chargesTo key b := by
  have c : chargesTo key b = (b.filterMap fun e =>
      match e.kind with
      | .gated d => if e.key = key then some d else none
      | .follower => none).map (·.cost) := by
    rw [List.map_filterMap]
    unfold chargesTo
    congr 1
    funext e
    cases e.kind with
    | gated d => dsimp only; split <;> rfl
    | follower => rfl
  unfold makersFor at h ⊢
  rw [List.filterMap_append, List.dropWhile_append, if_neg (by rw [List.isEmpty_iff]; exact h), List.map_append]
  exact congrArg (_ ++ ·) c.symm

theorem makersFor_head_append {key : FlowKey} {a : List QueueEntry} (b : List QueueEntry) {d : ClassDecision}
    {later : List ClassDecision} (h : makersFor key a = d :: later) : ∃ more, makersFor key (a ++ b) = d :: more := by
  unfold makersFor at h ⊢
  rw [List.filterMap_append, List.dropWhile_append, h]
  exact ⟨_, rfl⟩

theorem makersFor_eq_nil_append {key : FlowKey} {a b : List QueueEntry} :
    makersFor key (a ++ b) = [] ↔ makersFor key a = [] ∧ makersFor key b = [] := by
  constructor
  · intro h
    have ha : makersFor key a = [] := by
      cases e : makersFor key a with
      | nil => rfl
      | cons d l =>
        obtain ⟨m, hm⟩ := makersFor_head_append b e
        rw [hm] at h; cases h
    exact ⟨ha, by rw [← makersFor_append_of_nil b ha]; exact h⟩
  · rintro ⟨h1, h2⟩
    rw [makersFor_append_of_nil b h1, h2]

/-- An event that releases nothing. -/
theorem State.Released.nil (s : State) (l : LaneId) : s.Released l [] s where
  frames := ⟨[], .nil, (List.append_nil _).symm⟩
  charged := fun _ r h => ⟨r, h, by simp [chargesTo], by simp [chargesTo], fun _ => rfl⟩
  uncharged := fun _ h _ => h
  made := fun _ _ _ _ h => nomatch h
  order := fun _ _ _ h => by simp at h
  untracked := rfl
  stands := fun x h => ⟨x, h, rfl, rfl, rfl⟩
  roomless := id

/-- A connection gets no record where there is no room for one. -/
theorem State.Released.none_of_roomless {s t : State} {l : LaneId} {a : List QueueEntry} (h : s.Released l a t)
    (room : s.hasRoom l = false) {key : FlowKey} (hk : s.findRecord l key = none) : t.findRecord l key = none := by
  cases e : makersFor key a with
  | nil => exact h.uncharged key hk e
  | cons d later =>
    obtain ⟨hn, _⟩ | ⟨hr, _⟩ := h.made key d later hk e
    · exact hn
    · rw [room] at hr; cases hr

/-- A connection without a record after the event had none before it. -/
theorem State.Released.none_before {s t : State} {l : LaneId} {a : List QueueEntry} (h : s.Released l a t)
    {key : FlowKey} (hk : t.findRecord l key = none) : s.findRecord l key = none := by
  cases e : s.findRecord l key with
  | none => rfl
  | some r =>
    obtain ⟨r', h', _⟩ := h.charged key r e
    rw [hk] at h'; cases h'

/-- An entry left uncharged says that the lane has no room any more. -/
theorem State.Released.roomless_of_uncharged {s t : State} {l : LaneId} {a : List QueueEntry} (h : s.Released l a t)
    {e : QueueEntry} (he : e ∈ a) (hu : t.leavesUncharged l e = true) : t.hasRoom l = false := by
  unfold State.leavesUncharged at hu
  split at hu
  · rename_i d hd
    simp only [Bool.and_eq_true, decide_eq_true_eq, Option.isNone_iff_eq_none] at hu
    cases m : makersFor e.key a with
    | nil =>
      exfalso
      unfold makersFor at m
      rw [List.dropWhile_eq_nil_iff] at m
      have := m d (List.mem_filterMap.mpr ⟨e, he, by simp [hd]⟩)
      simp [hu.1] at this
    | cons d' later =>
      obtain ⟨_, hr⟩ | ⟨_, r', hr', _⟩ := h.made e.key d' later (h.none_before hu.2) m
      · exact hr
      · rw [hu.2] at hr'; cases hr'
  · cases hu

/-- What a later release does not change: which of the earlier entries are left uncharged. -/
theorem State.Released.leavesUncharged_eq {s t u : State} {l : LaneId} {a b : List QueueEntry}
    (h1 : s.Released l a t) (h2 : t.Released l b u) {e : QueueEntry} (he : e ∈ a) :
    u.leavesUncharged l e = t.leavesUncharged l e := by
  cases ht : t.leavesUncharged l e with
  | true =>
    have room := h1.roomless_of_uncharged he ht
    unfold State.leavesUncharged at ht ⊢
    split at ht
    · simp only [Bool.and_eq_true, decide_eq_true_eq, Option.isNone_iff_eq_none] at ht ⊢
      exact ⟨ht.1, h2.none_of_roomless room ht.2⟩
    · cases ht
  | false =>
    cases hu : u.leavesUncharged l e with
    | false => rfl
    | true =>
      unfold State.leavesUncharged at ht hu
      cases hk : e.kind with
      | gated d =>
        simp only [hk, Bool.and_eq_true, decide_eq_true_eq, Option.isNone_iff_eq_none] at hu
        simp [hk, hu.1, h2.none_before hu.2] at ht
      | follower => simp [hk] at hu

/-- Releases of some entries and then of others are releases of both in their order. -/
theorem State.Released.append {s t u : State} {l : LaneId} {a b : List QueueEntry} (h1 : s.Released l a t)
    (h2 : t.Released l b u) : s.Released l (a ++ b) u where
  frames := by
    obtain ⟨fs, hf, ht⟩ := h1.frames
    obtain ⟨gs, hg, hu⟩ := h2.frames
    exact ⟨fs ++ gs, by rw [List.map_append]; exact List.rel_append hf hg, by rw [hu, ht, List.append_assoc]⟩
  charged := by
    intro key r h
    obtain ⟨r1, e1, c1, s1, l1⟩ := h1.charged key r h
    obtain ⟨r2, e2, c2, s2, l2⟩ := h2.charged key r1 e1
    refine ⟨r2, e2, ?_, ?_, ?_⟩
    · rw [chargesTo_append, List.foldl_append]
      obtain ⟨⟩ := r; obtain ⟨⟩ := r1; obtain ⟨⟩ := r2
      simp only [FlowRecord.mk.injEq] at c1 c2 ⊢
      simp_all [Bool.or_assoc]
    · intro hs
      rw [chargesTo_append] at hs
      by_cases hb : chargesTo key b = []
      · exact s2 (Or.inl (s1 (by simpa [hb] using hs)))
      · exact s2 (Or.inr hb)
    · intro hn
      have := (FlowRecord.mk.inj c1).2.2.2.2.1
      exact (l2 (this.trans hn)).trans (l1 hn)
  uncharged := by
    intro key h hc
    rw [makersFor_eq_nil_append] at hc
    exact h2.uncharged key (h1.uncharged key h hc.1) hc.2
  made := by
    intro key d later h hc
    cases ha : makersFor key a with
    | nil =>
      rw [makersFor_append_of_nil b ha] at hc
      obtain hn | ⟨hr, hm⟩ := h2.made key d later (h1.uncharged key h ha) hc
      · exact Or.inl hn
      · refine Or.inr ⟨?_, hm⟩
        cases hs : s.hasRoom l with
        | true => rfl
        | false => rw [h1.roomless hs] at hr; cases hr
    | cons d' later' =>
      obtain ⟨more, hm⟩ := makersFor_head_append b ha
      have hcost := makersFor_append_of_cons b (by rw [ha]; simp : makersFor key a ≠ [])
      rw [hc] at hm hcost
      obtain ⟨rfl, rfl⟩ := List.cons.inj hm
      obtain ⟨hn, hr⟩ | ⟨hr, r1, e1, low, c1⟩ := h1.made key d later' h ha
      · exact Or.inl ⟨h2.none_of_roomless hr hn, h2.roomless hr⟩
      · obtain ⟨r2, e2, c2, s2, l2⟩ := h2.charged key r1 e1
        have slot : r2.slot = r1.slot := (FlowRecord.mk.inj c2).1
        refine Or.inr ⟨hr, r2, e2, ?_, ?_⟩
        · intro n hlt
          obtain ⟨x, hx, hxn⟩ := low n (slot ▸ hlt)
          obtain ⟨x', hx', hs, _⟩ := h2.stands x hx
          exact ⟨x', hx', hs.trans hxn⟩
        · rw [ha] at hcost
          rw [hcost, List.foldl_append]
          have seen := s2 (Or.inl (FlowRecord.mk.inj c1).2.2.2.2.2.2.2.2.2.2.2.2.2.2)
          have edge := l2 (FlowRecord.mk.inj c1).2.2.2.2.1
          obtain ⟨⟩ := r1; obtain ⟨⟩ := r2
          simp only [FlowRecord.mk.injEq] at c1 c2 seen edge ⊢
          simp_all
  order := by
    intro before e rest hsplit hu key hk hm
    obtain ⟨a', ha, hb⟩ | ⟨b', ha, hb⟩ := List.append_eq_append_iff.mp hsplit
    · rw [ha, makersFor_eq_nil_append] at hm
      exact h2.order a' e rest hb hu key (h1.uncharged key hk hm.1) hm.2
    · cases b' with
      | nil =>
        rw [List.append_nil] at ha
        subst ha
        exact h2.order [] e rest (by simpa using hb.symm) hu key (h1.uncharged key hk hm) rfl
      | cons x c =>
        obtain ⟨rfl, rfl⟩ := List.cons.inj hb
        have he : e ∈ a := by rw [ha]; simp
        rw [h1.leavesUncharged_eq h2 he] at hu
        exact h2.none_of_roomless (h1.roomless_of_uncharged he hu) (h1.order before e c ha hu key hk hm)
  untracked := by
    rw [h2.untracked, h1.untracked, List.filter_append, List.length_append, Nat.add_comm,
      Function.iterate_add_apply,
      List.filter_congr fun e he => h1.leavesUncharged_eq h2 he]
  stands := by
    intro x hx
    obtain ⟨y, hy, a1, a2, a3⟩ := h1.stands x hx
    obtain ⟨z, hz, b1, b2, b3⟩ := h2.stands y hy
    exact ⟨z, hz, b1.trans a1, b2.trans a2, b3.trans a3⟩
  roomless := fun h => h2.roomless (h1.roomless h)

end Sys2Proof.Machine
end

