-- ==== Sys2Proof/Laws/Grants.lean ====
section
/-! SUPPORT. The grants of one recompute sum to at most the budget, in either regime (R84 to R86). -/

namespace Sys2Proof.Machine

/-- Floors of proportional shares of `total` sum to at most `total`. -/
theorem sum_shares_le (total : Nat) (ws : List Nat) (w : Nat) (h : ws.sum ≤ w) :
    (ws.map fun x => total * x / w).sum ≤ total := by
  rcases Nat.eq_zero_or_pos w with hw | hw
  · have : ∀ x, total * x / w = 0 := by intro x; rw [hw]; exact Nat.div_zero _
    simp [this]
  · have key : ∀ xs : List Nat, (xs.map fun x => total * x / w).sum * w ≤ total * xs.sum := by
      intro xs
      induction xs with
      | nil => simp
      | cons x rest ih =>
        simp only [List.map_cons, List.sum_cons]
        have hx := Nat.div_mul_le_self (total * x) w
        rw [Nat.add_mul, Nat.mul_add]
        omega
    have h1 := key ws
    have h2 : total * ws.sum ≤ total * w := Nat.mul_le_mul_left _ h
    exact Nat.le_of_mul_le_mul_right (Nat.le_trans h1 h2) hw

/-- Proportional shares added to a floor each, as one sum. -/
theorem sum_floor_shares (floor total w : Nat) (ws : List Nat) :
    (ws.map fun x => floor + total * x / w).sum = ws.length * floor + (ws.map fun x => total * x / w).sum := by
  induction ws with
  | nil => simp
  | cons x rest ih =>
    simp only [List.map_cons, List.sum_cons, List.length_cons, ih, Nat.add_mul]
    omega

/-- The grants of a lane's active records sum to at most B (R84, R85). -/
theorem sum_grants_le (p : LaneParams) (budget : Nat) (ws : List Nat) :
    (ws.map fun x => grantOf p budget ws.length ws.sum x).sum ≤ budget := by
  unfold grantOf regimeOf
  by_cases h : ws.length * p.floorGrant ≤ budget
  · simp only [h, if_true]
    rw [sum_floor_shares]
    have := sum_shares_le (budget - ws.length * p.floorGrant) ws ws.sum (Nat.le_refl _)
    omega
  · simp only [h, if_false]
    exact sum_shares_le budget ws ws.sum (Nat.le_refl _)

end Sys2Proof.Machine
end

