-- ==== Sys2Proof/Laws/Pool.lean ====
section
/-! SUPPORT. The pool's canonical form is kept by every operation on the pool, and what creation, a change and a
removal of a record do to a lane's records (R54, R57, R72). -/

namespace Sys2Proof.Machine

/-! ### The canonical form -/

theorem poolSlotsFrom_mono {m n : Nat} (h : m ≤ n) :
    ∀ {pool : List FlowRecord}, poolSlotsFrom n pool = true → poolSlotsFrom m pool = true := by
  intro pool hp
  cases pool with
  | nil => rfl
  | cons r rest =>
    simp only [poolSlotsFrom, Bool.and_eq_true, decide_eq_true_eq] at hp ⊢
    exact ⟨⟨by omega, hp.1.2⟩, hp.2⟩

/-- A change of records that keeps their slots keeps the canonical form. -/
theorem poolSlotsFrom_map (f : FlowRecord → FlowRecord) (hf : ∀ r : FlowRecord, (f r).slot = r.slot) :
    ∀ (n : Nat) (pool : List FlowRecord), poolSlotsFrom n (pool.map f) = poolSlotsFrom n pool := by
  intro n pool
  induction pool generalizing n with
  | nil => rfl
  | cons r rest ih => simp [poolSlotsFrom, hf, ih]

/-- A change that keeps slots and may remove records keeps the canonical form. -/
theorem poolSlotsFrom_filterMap (f : FlowRecord → Option FlowRecord)
    (hf : ∀ r r' : FlowRecord, f r = some r' → r'.slot = r.slot) :
    ∀ {n : Nat} {pool : List FlowRecord}, poolSlotsFrom n pool = true → poolSlotsFrom n (pool.filterMap f) = true := by
  intro n pool
  induction pool generalizing n with
  | nil => intro _; rfl
  | cons r rest ih =>
    intro h
    simp only [poolSlotsFrom, Bool.and_eq_true, decide_eq_true_eq] at h
    cases hr : f r with
    | none =>
      rw [List.filterMap_cons, hr]
      exact poolSlotsFrom_mono (by omega) (ih h.2)
    | some r' =>
      rw [List.filterMap_cons, hr]
      simp only [poolSlotsFrom, Bool.and_eq_true, decide_eq_true_eq, hf r r' hr]
      exact ⟨h.1, ih h.2⟩

/-- A removal keeps the canonical form. -/
theorem poolSlotsFrom_filter (p : FlowRecord → Bool) {n : Nat} {pool : List FlowRecord}
    (h : poolSlotsFrom n pool = true) : poolSlotsFrom n (pool.filter p) = true := by
  rw [← List.filterMap_eq_filter]
  refine poolSlotsFrom_filterMap _ ?_ h
  intro r r' hr
  simp only [Option.guard] at hr
  split at hr <;> simp_all

theorem lowestFree_ge (pool : List FlowRecord) : ∀ n : Nat, n ≤ lowestFree n pool := by
  induction pool with
  | nil => intro n; simp [lowestFree]
  | cons r rest ih =>
    intro n
    unfold lowestFree
    split
    · have := ih (n + 1); omega
    · exact Nat.le_refl n

/-- The lowest free slot is reached after at most as many records as the pool holds. -/
theorem lowestFree_le (pool : List FlowRecord) : ∀ n : Nat, lowestFree n pool ≤ n + pool.length := by
  induction pool with
  | nil => intro n; simp [lowestFree]
  | cons r rest ih =>
    intro n
    unfold lowestFree
    split
    · have := ih (n + 1); simp only [List.length_cons]; omega
    · omega

/-- The lowest free slot is free. -/
theorem lowestFree_free : ∀ {n : Nat} {pool : List FlowRecord}, poolSlotsFrom n pool = true →
    ∀ r ∈ pool, r.slot ≠ lowestFree n pool := by
  intro n pool
  induction pool generalizing n with
  | nil => intro _ r hr; simp at hr
  | cons r rest ih =>
    intro h x hx
    simp only [poolSlotsFrom, Bool.and_eq_true, decide_eq_true_eq] at h
    have hge : ∀ y ∈ rest, r.slot < y.slot := by
      intro y hy
      have aux : ∀ {m : Nat} {p : List FlowRecord}, poolSlotsFrom m p = true → ∀ y ∈ p, m ≤ y.slot := by
        intro m p
        induction p generalizing m with
        | nil => intro _ y hy; simp at hy
        | cons q qs ihq =>
          intro hq y hy
          simp only [poolSlotsFrom, Bool.and_eq_true, decide_eq_true_eq] at hq
          rcases List.mem_cons.mp hy with e | hm
          · subst e; exact hq.1.1
          · have := ihq hq.2 y hm; omega
      exact aux h.2 y hy
    unfold lowestFree
    split
    · rename_i he
      rcases List.mem_cons.mp hx with e | hm
      · subst e; have := lowestFree_ge rest (n + 1); omega
      · exact ih (by rw [← he]; exact h.2) x hm
    · rename_i he
      rcases List.mem_cons.mp hx with e | hm
      · subst e; exact he
      · have := hge x hm; have := h.1.1; omega

/-- A record placed in the lowest free slot keeps the canonical form. -/
theorem poolSlotsFrom_insert (x : FlowRecord) : ∀ {n : Nat} {pool : List FlowRecord},
    poolSlotsFrom n pool = true → x.slot = lowestFree n pool → x.slot < Config.poolSlots →
    poolSlotsFrom n (insertRecord x pool) = true := by
  intro n pool
  induction pool generalizing n with
  | nil =>
    intro _ hx hlt
    simp only [lowestFree] at hx
    subst hx
    simp [insertRecord, poolSlotsFrom, hlt]
  | cons r rest ih =>
    intro h hx hlt
    simp only [poolSlotsFrom, Bool.and_eq_true, decide_eq_true_eq] at h
    unfold lowestFree at hx
    split at hx
    · rename_i he
      have hge := lowestFree_ge rest (n + 1)
      have hnot : ¬ x.slot < r.slot := by omega
      unfold insertRecord
      rw [if_neg hnot]
      simp only [poolSlotsFrom, Bool.and_eq_true, decide_eq_true_eq]
      refine ⟨h.1, ih h.2 ?_ hlt⟩
      rw [he]; exact hx
    · rename_i he
      have hlt' : x.slot < r.slot := by have := h.1.1; omega
      unfold insertRecord
      rw [if_pos hlt']
      simp only [poolSlotsFrom, Bool.and_eq_true, decide_eq_true_eq]
      exact ⟨⟨by omega, hlt⟩, ⟨by omega, h.1.2⟩, h.2⟩

/-- Creation keeps the canonical form (R57). -/
theorem createRecord_keeps_poolWf (s : State) (l : LaneId) (key : FlowKey) (st : RecordState) (d : ClassDecision)
    (h : poolWf s.pool = true) : poolWf (s.createRecord l key st d).pool = true := by
  unfold State.createRecord
  split
  · exact h
  · split
    · rename_i hr
      simp only [State.hasRoom, Bool.and_eq_true, decide_eq_true_eq] at hr
      refine poolSlotsFrom_insert _ h rfl ?_
      have := lowestFree_le s.pool 0
      simp only [newRecord]
      omega
    · exact h

theorem modRecord_keeps_poolWf (s : State) (l : LaneId) (key : FlowKey) (f : FlowRecord → FlowRecord)
    (hf : ∀ r : FlowRecord, (f r).slot = r.slot) (h : poolWf s.pool = true) : poolWf (s.modRecord l key f).pool = true := by
  unfold State.modRecord poolWf
  rw [poolSlotsFrom_map]
  · exact h
  · intro r; split
    · exact hf r
    · rfl

theorem removeLaneRecords_keeps_poolWf (s : State) (l : LaneId) (h : poolWf s.pool = true) :
    poolWf (s.removeLaneRecords l).pool = true := poolSlotsFrom_filter _ h

theorem removeRecord_keeps_poolWf (s : State) (l : LaneId) (key : FlowKey) (h : poolWf s.pool = true) :
    poolWf (s.removeRecord l key).pool = true := poolSlotsFrom_filter _ h

theorem limits_slot (r r' : FlowRecord) (p : LaneParams) (h : r.limits p = some r') : r'.slot = r.slot := by
  rw [FlowRecord.limits_eq r r' p h]
  split <;> rfl

theorem ageLane_keeps_poolWf (s : State) (l : LaneId) (h : poolWf s.pool = true) : poolWf (s.ageLane l).pool = true := by
  refine poolSlotsFrom_filterMap _ ?_ h
  intro r r' hr
  split at hr
  · rw [limits_slot _ _ _ hr]; rfl
  · injection hr with e; rw [e]

theorem limitSlot_keeps_poolWf (s : State) (slot : Nat) (h : poolWf s.pool = true) :
    poolWf (s.limitSlot slot).pool = true := by
  refine poolSlotsFrom_filterMap _ ?_ h
  intro r r' hr
  split at hr
  · exact limits_slot _ _ _ hr
  · injection hr with e; rw [e]

theorem writeGrants_keeps_poolWf (s : State) (l : LaneId) (b : Nat) (h : poolWf s.pool = true) :
    poolWf (s.writeGrants l b).pool = true := by
  unfold State.writeGrants poolWf
  rw [poolSlotsFrom_map]
  · exact h
  · intro r; split <;> rfl

theorem recompute_keeps_poolWf (s : State) (l : LaneId) (h : poolWf s.pool = true) : poolWf (s.recompute l).pool = true := by
  simp only [State.recompute, State.pool_latchOverload, State.modLane_pool]
  exact writeGrants_keeps_poolWf s l _ h

/-- The pool is in canonical form right after reset. -/
theorem reset_poolWf : poolWf State.reset.pool = true := rfl

/-! ### What a creation does to its lane's records -/

theorem length_insertRecord (x : FlowRecord) (pool : List FlowRecord) :
    (insertRecord x pool).length = pool.length + 1 := by
  induction pool with
  | nil => rfl
  | cons r rest ih =>
    unfold insertRecord
    split
    · rfl
    · simp [ih]

theorem mem_insertRecord (x y : FlowRecord) (pool : List FlowRecord) :
    y ∈ insertRecord x pool ↔ y = x ∨ y ∈ pool := by
  induction pool with
  | nil => simp [insertRecord]
  | cons r rest ih =>
    unfold insertRecord
    split
    · simp
    · simp only [List.mem_cons, ih]; tauto

/-- An insertion is a permutation of putting the record in front. -/
theorem insertRecord_perm (x : FlowRecord) (pool : List FlowRecord) : (insertRecord x pool).Perm (x :: pool) := by
  induction pool with
  | nil => exact List.Perm.refl _
  | cons r rest ih =>
    unfold insertRecord
    split
    · exact List.Perm.refl _
    · exact (ih.cons r).trans (List.Perm.swap x r rest)

/-- A created record raises the lane's record count by one (R57). -/
theorem recordCount_insert (x : FlowRecord) (l : LaneId) (hx : x.lane = l) (pool : List FlowRecord) :
    ((insertRecord x pool).filter fun r => r.lane = l).length = (pool.filter fun r => r.lane = l).length + 1 := by
  have h := ((insertRecord_perm x pool).filter fun r => r.lane = l).length_eq
  rw [h]
  simp [hx]

end Sys2Proof.Machine
end

