-- ==== Sys2Proof/WellFormed.lean ====
section
/-! DEFINITION. Which steps can be spelled on the wire: the bounds that the types of Instr leave open. -/

namespace Sys2Proof

/-- A parameter list fits a command when its length can stand in the length byte without making the
command an overrun (R158). -/
def paramsWellFormed (params : List Byte) : Bool := decide (params.length ≤ Config.maxParams)

/-- A frame has at least the four bytes of its FCS (R1, R132). Every longer list is a frame: oversize
and short ones are frames that R2 and R3 deal with. -/
def frameWellFormed (frame : Frame) : Bool := decide (4 ≤ frame.length)

/-- The steps that can be spelled on the wire. -/
def Instr.wellFormed : Instr → Bool
  | .powerOn | .rstNAssert | .rstNRelease _ _ _ => true
  | .inboundArrival _ f | .outboundArrival _ f => frameWellFormed f
  | .outputFrameEnd _ | .responseHandover => true
  | .keepalive p | .readChip p | .writeChip p | .setTimebase p | .ackEvents p => paramsWellFormed p
  | .setLaneMode p | .writeLaneParams p | .readLane p | .readCounters p => paramsWellFormed p
  | .flushFlows p | .releaseLane p | .startProbe p => paramsWellFormed p
  | .writeClass p | .readClass p | .readFlows p | .evictFlow p | .chipReset p => paramsWellFormed p
  | .drainRelease _ | .epochTick | .flowTableTick | .expectationTimeout _ | .ageLimit _ => true
  | .gateTick | .holdLimit _ | .probeTick | .probeWindowStart | .probeCompletion => true
  | .probeIntervalRequest _ | .keepaliveTick | .keepaliveExpiry | .refclkStop | .refclkReturn => true

end Sys2Proof
end

