-- ==== Sys2Proof/Tests/Slice0.lean ====
section
/-! SUPPORT. Small tests of the model against the manual's worked values, and a witness for the hypotheses of every
statement. -/

namespace Sys2Proof.Tests

open Sys2Proof.Machine

/- One proof after another: the kernel evaluations below would each wait in a thread of its own. -/
set_option Elab.async false

/-! ### Well-formedness, decoding and the fixed names -/

/-- Ill-formed: a parameter list of 251 bytes (R158). -/
theorem test_params_too_long_refused : (Instr.readChip (List.replicate 251 0)).wellFormed = false := by
  simp only [Instr.wellFormed, paramsWellFormed, Config.maxParams, List.length_replicate]
  decide

/-- Ill-formed: a frame of 3 bytes has no FCS (R1). -/
theorem test_frame_without_fcs_refused : (Instr.inboundArrival 0 [1, 2, 3]).wellFormed = false := by decide

theorem test_frame_of_four_bytes_accepted : (Instr.outboundArrival 7 [1, 2, 3, 4]).wellFormed = true := by decide

theorem test_no_word_spells_a_command : decodeTableWord 8 0x7F = none ∧ decodeTableWord 0 0 = none := by decide

theorem test_withFetchWord_changes_nothing : State.reset.withFetchWord 16 0x1234 = State.reset := rfl

/-! ### Worked values of the manual -/

/-- R132: the CRC-32 over the ASCII text 123456789. -/
theorem test_crc_of_123456789 :
    crc32 [0x31, 0x32, 0x33, 0x34, 0x35, 0x36, 0x37, 0x38, 0x39] = 0xCBF43926 := by decide +kernel

/-- Chapter Window Rewriting, worked checksum updates. -/
theorem test_checksum_updates :
    updateChecksum 0x5A3C 0x0400 0x00A8 = 0x5D94 ∧ updateChecksum 0x3E71 0x0400 0x005A = 0x4217 ∧
      updateChecksum 0x9000 0x0200 0x0059 = 0x91A7 ∧ updateChecksum 0xFCA7 0x0400 0x00A8 = 0x0000 := by decide +kernel

/-- Chapter Window Rewriting, worked rewrites, lines 1 to 5 and 7: A0 is 5000. -/
theorem test_window_rewrites :
    windowOut 21604 7 1024 none 5000 = 168 ∧ windowOut 11459 7 1024 (some (5000 + 21504)) (5000 + 10000) = 90 ∧
      windowOut 11459 7 0 (some (5000 + 21520)) (5000 + 20000) = 0 ∧
      windowOut 11459 7 512 (some (5000 + 20000)) (5000 + 20000) = 89 ∧
      windowOut 2520 7 512 (some (5000 + 31392)) (5000 + 30000) = 19 ∧
      windowOut 21604 7 1024 (some (5000 + 163504)) (5000 + 32432) = 1024 := by decide +kernel

/-- Chapter Window Rewriting, corners: a grant of 0, and a unit above the grant. -/
theorem test_window_corners :
    windowOut 0 7 1024 none 0 = 1 ∧ windowOut 10081 14 16 none 0 = 1 ∧ windowOut 151228 0 65535 none 0 = 65535 := by
  decide +kernel

/-- Chapter Budget and Grant Computation: the budget at the defaults, at its cap, and n_max. -/
theorem test_budgets :
    budgetOf LaneParams.reset 156250 = 114364 ∧ nMaxOf LaneParams.reset 114364 = 39 ∧
      budgetOf { LaneParams.reset with bufferShare := 16000000, targetDelay := 4095 } 16777215 = 16777215 := by decide

/-- The FLOOR regime with weights 1, 2, 4, 8 of W = 16, and the FALLBACK regime with sixty records of weight 4. -/
theorem test_grants :
    [1, 2, 4, 8].map (grantOf LaneParams.reset 151228 5 16) = [11459, 19998, 37077, 71234] ∧
      grantOf LaneParams.reset 151228 60 240 4 = 2520 ∧ grantOf LaneParams.reset 151228 51 204 4 = 2965 := by decide

/-- Chapter Epoch Timer and Rate Probe: 1,000,000 bytes over 8 epochs; 10,000 over 2 clamped up. -/
theorem test_measured_rates :
    measuredRate 1000000 8 156250 = 125000 ∧ measuredRate 10000 2 156250 = 9765 := by decide

/-- R51: base 6020 with k = 4 is stored as 6016, with k = 16 as 0. -/
theorem test_class_base_is_aligned :
    (classEntryAt [1, 1, 0, 0x17, 0x84, 4, 0, 0, 8, 1, 0, 0, 0, 4] 0).map (·.base) = some 6016 ∧
      (classEntryAt [1, 1, 0, 0x17, 0x84, 16, 0, 0, 8, 1, 0, 0, 0, 4] 0).map (·.base) = some 0 := by decide +kernel

/-- Worked lookups: entry 10 takes 6005, entry 20 takes 0x0A10 and, with its don't-care bit, 0x4A10, not 0x0B00. -/
theorem test_match_test :
    let e10 : MatchWindow := ⟨true, .second, .remotePort, 6000, 4, 0, 8, .request, 20000, 4⟩
    let e20 : MatchWindow := ⟨true, .third, .remoteAddrLow16, 0x0A00, 8, 0x4000, 0xFF, .plain, 0, 2⟩
    e10.tests 6005 = true ∧ e10.tests 6016 = false ∧ e20.tests 0x0A10 = true ∧ e20.tests 0x4A10 = true ∧
      e20.tests 0x0B00 = false ∧ e10.takesPart 3 = true ∧ e10.takesPart 2 = false := by decide +kernel

/-- R10: kinds 1 and 3, a shift above 14, and a malformed list. -/
theorem test_scale_options :
    scaleOption [1, 3, 3, 7] = some 7 ∧ scaleOption [3, 3, 15, 0] = some 14 ∧ scaleOption [2, 4, 5] = none ∧
      scaleOption [0, 3, 3, 7] = none := by decide +kernel

/-- R99: cells of frames of 64, 256, 257, 1518 and 9216 bytes. -/
theorem test_cells : [64, 256, 257, 1518, 9216].map cellsOf = [1, 1, 2, 6, 36] := by decide

/-! ### Frames and states for steps -/

/-- A frame with these contents, padded to 60 bytes, and its FCS. -/
def frameOf (contents : List Byte) : Frame := withFcs (contents ++ zeros (60 - contents.length))

/-- An IPv4 TCP frame of 6 payload bytes or none between two addresses and ports. -/
def tcpFrame (src dst : List Byte) (srcPort dstPort : Nat) (flags : Byte) (payload : Nat) : Frame :=
  frameOf ([1, 2, 3, 4, 5, 6, 7, 8, 9, 10, 11, 12, 8, 0, 0x45, 0] ++ beBytes 2 (40 + payload) ++
    [0, 0, 0, 0, 64, 6, 0, 0] ++ src ++ dst ++ beBytes 2 srcPort ++ beBytes 2 dstPort ++ zeros 8 ++
    [0x50, flags, 4, 0, 0x5A, 0x3C, 0, 0] ++ zeros payload)

def station : List Byte := [10, 0, 0, 1]

def remote : List Byte := [10, 0, 1, 1]

/-- The connection of the test frames. -/
def flow : FlowKey := ⟨.v4, station, 1001, remote, 6005⟩

/-- ACK with 6 payload bytes, from the station. -/
def requestFrame : Frame := tcpFrame station remote 1001 6005 0x10 6

/-- SYN from the station. -/
def synFrame : Frame := tcpFrame station remote 1001 6005 0x02 0

/-- ACK with 6 payload bytes, from the remote. -/
def answerFrame : Frame := tcpFrame remote station 6005 1001 0x10 6

/-- SYN-ACK from the remote. -/
def synAckFrame : Frame := tcpFrame remote station 6005 1001 0x12 0

/-- A frame of EtherType 0x9000. -/
def opaqueFrame : Frame := frameOf [1, 2, 3, 4, 5, 6, 7, 8, 9, 10, 11, 12, 0x90, 0]

/-- A control frame to the chip address with ADDR 0 and this control payload. -/
def controlFrame (payload : List Byte) : Frame :=
  frameOf ([0x0A, 0x3C, 0x71, 0x2F, 0x50, 0, 7, 8, 9, 10, 11, 12, 0x88, 0xB5] ++ payload)

/-- One KEEPALIVE, tag 0x0102. -/
def keepaliveFrame : Frame := controlFrame [1, 0, 1, 2, 1, 0, 1, 0]

/-- Version 2: malformed. -/
def malformedFrame : Frame := controlFrame [2, 0, 1, 2, 1, 0, 1, 0]

def segment (d : Direction) (ack syn : Bool) (payload : Nat) : Segment :=
  ⟨d, flow, 0, syn, ack, false, false, payload, none, 34⟩

/-- The record of the test connection, OPEN and inactive. -/
def record : FlowRecord := newRecord 0 0 flow .opened ⟨some 0, .request, 500, 4⟩

/-- Entry 0 makes remote port 6005 a REQUEST of cost 500. -/
def requestClass : MatchWindow := ⟨true, .first, .remotePort, 6005, 0, 0, 0xFF, .request, 500, 4⟩

/-- Lane 0 in a mode, with this pool and with the request class loaded. -/
def laneIn (m : Mode) (pool : List FlowRecord) : State :=
  State.modLane { State.reset with pool := pool, windows := State.reset.windows.set 0 requestClass } 0
    fun x => { x with mode := m, target := if m = .draining then .bypass else .none }

/-- The same, with this queue. -/
def laneHolding (m : Mode) (pool : List FlowRecord) (queue : List QueueEntry) : State :=
  (laneIn m pool).modLane 0 fun x => { x with queue := queue }

def decision : ClassDecision := ⟨some 0, .request, 500, 4⟩

/-- A GATED entry of the test connection. -/
def held : QueueEntry := ⟨.gated decision, flow, [1], 0⟩

/-- A GATED entry of another connection, held for 8 ticks. -/
def heldOther : QueueEntry := ⟨.gated decision, { flow with stationPort := 1002 }, [2], 8⟩

/-- The engine with one READ-CHIP of a frame of lane 0 to execute. -/
def executing : State :=
  { State.reset with
    control := { Control.reset with engine := .executing (openService 0 (controlFrame [1, 0, 1, 2, 1, 0, 2, 0])) } }

/-- A response that waits in HAND-OVER for lane 0. -/
def handingOver : State :=
  { State.reset with control := { Control.reset with engine := .handOver 0 [3] } }

/-- The probe engine measuring lane 0, LONG, with 7 window ticks done. -/
def measuring (valid : Bool) : State :=
  { laneIn .active [] with probe := ⟨[], .measuring ⟨0, .long⟩, 7, 1000000, valid⟩ }

/-! ### Steps -/

/-- The state a command answers. -/
def after (c : Instr) (s : State) : State :=
  match exec c s with
  | .next t => t
  | .fault _ | .refused _ => s

theorem frameOf_good (c : List Byte) (h : c.length ≤ 60) : goodFrame (frameOf c) :=
  goodFrame_withFcs _ (by simp; omega) (by simp; omega)

theorem requestFrame_good : goodFrame requestFrame := frameOf_good _ (by decide)

theorem synFrame_good : goodFrame synFrame := frameOf_good _ (by decide)

theorem answerFrame_good : goodFrame answerFrame := frameOf_good _ (by decide)

theorem synAckFrame_good : goodFrame synAckFrame := frameOf_good _ (by decide)

theorem opaqueFrame_good : goodFrame opaqueFrame := frameOf_good _ (by decide)

theorem keepaliveFrame_good : goodFrame keepaliveFrame := frameOf_good _ (by decide)

theorem malformedFrame_good : goodFrame malformedFrame := frameOf_good _ (by decide)

/-- R12: the key is oriented to the station in both directions. -/
theorem test_segment_reports :
    segmentOf .outbound requestFrame = some (segment .outbound true false 6) ∧
      segmentOf .inbound answerFrame = some (segment .inbound true false 6) := by decide +kernel

theorem requestFrame_tcp (s : State) (h : isControl s.control.etherType s.straps.addr requestFrame = false) :
    s.outboundTcp requestFrame (segment .outbound true false 6) := ⟨requestFrame_good, h, test_segment_reports.1⟩

/-- R101: a request start that passes is charged 500. -/
theorem test_request_is_charged :
    (((laneIn .active [record]).outboundFrame 0 requestFrame).pool.map (·.expected)) = [500] := by
  rw [outboundFrame_tcp (requestFrame_tcp _ (by decide +kernel))]
  decide +kernel

/-- R101: behind an entry it is held. -/
theorem test_request_is_held :
    (((laneHolding .active [record] [heldOther]).outboundFrame 0 requestFrame).lane 0).counters.gated = 1 := by
  rw [outboundFrame_tcp (requestFrame_tcp _ (by decide +kernel))]
  decide +kernel

/-- R13, R63: an answer is forwarded, and its six bytes are counted. -/
theorem test_answer_is_forwarded_and_counted :
    ((laneIn .active [{ record with expected := 500 }]).inboundFrame 0 answerFrame).stationSent.get 0 =
        [answerFrame] ∧
      (((laneIn .active [{ record with expected := 500 }]).inboundFrame 0 answerFrame).pool.map
        fun r => (r.expected, r.epochBytes)) = [(494, 6)] := by
  rw [inboundFrame_tcp ⟨answerFrame_good, by decide +kernel, test_segment_reports.2⟩]
  constructor
  · rfl
  · decide +kernel

/-- R155, R157: a well-formed frame is accepted and taken by the IDLE engine. -/
theorem test_control_frame_accepted :
    (State.reset.inboundFrame 0 keepaliveFrame).control.accepted = 1 := by
  rw [inboundFrame_good keepaliveFrame_good]
  decide +kernel

/-- R162: KEEPALIVE with T = 3 takes an EXPIRED monitor to RUNNING. -/
theorem test_keepalive_leaves_expired :
    (after (.keepalive []) { State.reset with keepalive := ⟨3, 3, .expired⟩ }).keepalive = ⟨3, 0, .running⟩ := by
  decide +kernel

/-- R174: chapter Keepalive, a period of 3: the third tick expires. -/
theorem test_third_tick_expires :
    (after .keepaliveTick { State.reset with keepalive := ⟨3, 2, .running⟩ }).keepalive = ⟨3, 3, .expired⟩ := by
  decide +kernel

/-- R29: entry to MONITOR at the defaults gives B = 114,364 and n_max = 39. -/
theorem test_enter_monitor :
    let t := after (.setLaneMode [5, 1]) State.reset
    (t.lane 5).mode = .monitor ∧ (t.lane 5).budget = 114364 ∧ (t.lane 5).nMax = 39 := by decide +kernel

/-- R28: ACTIVE is refused from BYPASS. -/
theorem test_active_from_bypass_refused :
    ((after (.setLaneMode [5, 2]) State.reset).lastItem).map (·.status) = some 0x02 := by decide +kernel

/-- R150: the worked LONG window gives 125,000, B = 114,364 - 48,828 + 39,062, and leaves the engine IDLE. -/
theorem test_probe_completes :
    let t := after .probeCompletion { measuring true with
      pool := [{ record with expected := 100000, epochBytes := 1 }] }
    (t.lane 0).rMeas = some 125000 ∧ (t.lane 0).budget = 104598 ∧ t.probe.engine = .idle := by decide +kernel

/-- Table 11-2: the lane, chip and record readouts are 47, 67 and 80 bytes long. -/
theorem test_readout_lengths :
    (State.reset.laneReadout 0).length = 47 ∧ State.reset.chipReadout.length = 67 ∧
      (State.reset.recordReadout record).length = 80 := by decide +kernel

/-- R171: the EtherType of the response and of the part after CHIP-RESET is 0x88B5. -/
theorem test_chip_reset_restores_ethertype :
    (after (.chipReset []) { State.reset with
      control := { Control.reset with etherType := 0x88B6 } }).control.etherType = 0x88B5 := by decide +kernel

/-- R137: the epoch number returns from 65535 to 0. -/
theorem test_epoch_number_wraps :
    (after .epochTick { State.reset with timer := { Timer.reset with epochNumber := 65535 } }).timer.epochNumber = 0 := by
  decide +kernel

/-! ### Witnesses: concrete states and operands that meet each statement's hypotheses -/

/-- A state whose engine has this command to execute next, with this result space left. -/
def executingWith (base : State) (code : Byte) (params : List Byte) (space : Nat) : State :=
  { base with
    control := { base.control with
      engine := .executing ⟨0, [], code :: BitVec.ofNat 8 params.length :: params, 0, 1, [], space, false⟩ } }

/-- Every command answers some state, the one `after` names. -/
theorem exec_after (c : Instr) (s : State) : exec c s = .next (after c s) := by
  cases c <;> rfl

theorem witness_IdleStepCountsOneClockCycle :
    (∃ s : State, s.pending = [] ∧ s.clocked = false) ∧
    (∃ s : State, s.pending = [] ∧ s.clocked = true ∧ s.timer.prescaleCount + 1 < s.timer.prescale) ∧
    (∃ s : State, s.pending = [] ∧ s.clocked = true ∧ s.timer.prescale ≤ s.timer.prescaleCount + 1 ∧
      s.timer.epochCount + 1 < s.timer.epochDivisor) ∧
    (∃ s : State, s.pending = [] ∧ s.clocked = true ∧ s.timer.prescale ≤ s.timer.prescaleCount + 1 ∧
      s.timer.epochDivisor ≤ s.timer.epochCount + 1) :=
  ⟨⟨{ State.reset with refclk := false }, by decide⟩,
    ⟨{ State.reset with timer := { Timer.reset with prescaleCount := 98 } }, by decide⟩,
    ⟨{ State.reset with timer := { Timer.reset with prescaleCount := 99, epochCount := 48 } }, by decide⟩,
    ⟨{ State.reset with timer := { Timer.reset with prescaleCount := 99, epochCount := 49 } }, by decide⟩⟩

theorem witness_PinEventsSetTheBlocks :
    { State.reset with rstN := false }.rstN = false ∧ State.reset.rstN = true := by decide

theorem witness_NothingHappensInResetOrWithoutClock :
    { State.reset with rstN := false }.rstN = false ∧ (Instr.readChip []).isPin = false ∧
      { State.reset with refclk := false }.refclk = false ∧ Instr.gateTick.needsClock = true := by decide

theorem witness_OversizeFrameIsDropped :
    State.reset.clocked = true ∧ 9216 < (List.replicate 9217 (0 : Byte)).length ∧
      (List.replicate 9216 (0 : Byte)).length = 9216 := by
  simp only [List.length_replicate]; decide

/-- A frame of 64 bytes with every bit of its FCS wrong. -/
def wrongFcsFrame : Frame := zeros 60 ++ (fcsBytes (zeros 60)).map (~~~ ·)

theorem map_not_ne (y : List Byte) (h : y ≠ []) : y.map (~~~ ·) ≠ y := by
  cases y with
  | nil => exact absurd rfl h
  | cons a rest =>
    intro e
    have : ∀ a : Byte, ¬ (~~~ a = a) := by decide
    exact this a (List.cons.inj e).1

theorem witness_BadFrameIsForwarded :
    State.reset.clocked = true ∧ (zeros 63).length ≤ 9216 ∧ (zeros 63).length < 64 ∧ wrongFcsFrame.length = 64 ∧
      wrongFcsFrame.drop (wrongFcsFrame.length - 4) ≠ fcsBytes (contentsOf wrongFcsFrame) := by
  have hl : wrongFcsFrame.length = 64 := by simp [wrongFcsFrame]
  refine ⟨by decide, by simp, by simp, hl, ?_⟩
  have h1 : wrongFcsFrame.drop 60 = (fcsBytes (zeros 60)).map (~~~ ·) := by
    rw [wrongFcsFrame, List.drop_append_of_le_length (by simp)]; simp [zeros]
  have h2 : contentsOf wrongFcsFrame = zeros 60 := by
    rw [contentsOf, hl]; simp [wrongFcsFrame]
  rw [hl, h1, h2]
  exact map_not_ne _ (by intro e; have := congrArg List.length e; simp at this)

theorem witness_OpaqueAndStationControlFrames :
    State.reset.clocked = true ∧ goodFrame opaqueFrame ∧
      (controlEnabled State.reset.straps.ctlsel 0 &&
        isControl State.reset.control.etherType State.reset.straps.addr opaqueFrame) = false ∧
      segmentOf .inbound opaqueFrame = none ∧ segmentOf .outbound opaqueFrame = none ∧ goodFrame keepaliveFrame ∧
      isControl State.reset.control.etherType State.reset.straps.addr keepaliveFrame = true :=
  ⟨by decide, opaqueFrame_good, by decide +kernel, by decide +kernel, by decide +kernel, keepaliveFrame_good,
    by decide +kernel⟩

/-- R4: the EtherType behind no, one and two tags; a length field, and a third tag, give none. -/
theorem test_ether_headers :
    let f (tags : List Byte) : Frame := zeros 12 ++ tags ++ [0x90, 0] ++ zeros 8
    etherHeader (f []) = some ⟨0x9000, 14⟩ ∧ etherHeader (f [0x81, 0, 0, 1]) = some ⟨0x9000, 18⟩ ∧
      etherHeader (f [0x88, 0xA8, 0, 1, 0x81, 0, 0, 2]) = some ⟨0x9000, 22⟩ ∧ etherHeader (f [5, 0xDC]) = none ∧
      etherHeader (f [0x81, 0, 0, 1, 0x81, 0, 0, 2, 0x81, 0, 0, 3]) = none := by decide +kernel

/-- R8, R12: an inbound IPv6 segment of 5 payload bytes with DSCP 46, its key oriented to the station. -/
theorem test_ipv6_report :
    segmentOf .inbound (zeros 12 ++ [0x86, 0xDD, 0x6B, 0x80, 0, 0] ++ beBytes 2 25 ++ [6, 64] ++ zeros 15 ++ [9] ++
        zeros 15 ++ [7] ++ beBytes 2 6005 ++ beBytes 2 1001 ++ zeros 8 ++ [0x50, 0x10] ++ zeros 6 ++ zeros 5 ++ zeros 4) =
      some ⟨.inbound, ⟨.v6, zeros 15 ++ [7], 1001, zeros 15 ++ [9], 6005⟩, 46, false, true, false, false, 5, none, 54⟩ := by
  decide +kernel

/-- Of its last part: options before a fault, and three faults. -/
theorem witness_OpaqueAndStationControlFrames_options :
    (∀ o ∈ ([[1], [3, 3, 7], [2, 4, 5, 180]] : List (List Byte)), wholeOption o) ∧ byteAt [0, 9] 0 = 0 ∧
      brokenOption [2] ∧ brokenOption [2, 1] ∧ brokenOption [3, 4, 1, 1] ∧ brokenOption [2, 5, 1, 1] ∧
      etherHeader opaqueFrame = some ⟨0x9000, 14⟩ := by decide +kernel

/-- Of its last part: a first command to execute, one of no code, and one that overruns. -/
theorem witness_ControlFrameIsConsumed_opening :
    let p := controlPayload keepaliveFrame
    let u := controlPayload (controlFrame [1, 0, 1, 2, 2, 0, 0x55, 250])
    let o := controlPayload (controlFrame [1, 0, 1, 2, 2, 0, 0x01, 251])
    (etherHeader keepaliveFrame).isSome = true ∧ byteAt p 4 = 1 ∧ p[6]?.getD 0 = 0x01 ∧ 8 + byteAt p 7 ≤ p.length ∧
      byteAt u 4 = 2 ∧ u[6]?.getD 0 = 0x55 ∧ u.length < 8 + byteAt u 7 ∧ byteAt o 4 = 2 ∧ 250 < byteAt o 7 ∧
      8 + byteAt (controlPayload (controlFrame [1, 0, 1, 2, 2, 0, 0x55, 30])) 7 ≤ 38 := by decide +kernel

/-- R160: a frame of one command opens with 1490 bytes of result space, KEEPALIVE first. -/
theorem test_opening :
    (match takesUp 0x88B5 0 3 keepaliveFrame with
     | .executing f => (f.space, f.next)
     | .idle | .handOver _ _ => (0, none)) = (1490, some (0x01, [])) := by decide +kernel

theorem witness_ControlFrameIsConsumed :
    State.reset.clocked = true ∧ goodFrame keepaliveFrame ∧ goodFrame malformedFrame ∧
      controlEnabled State.reset.straps.ctlsel 0 = true ∧
      isControl State.reset.control.etherType State.reset.straps.addr keepaliveFrame = true ∧
      isControl State.reset.control.etherType State.reset.straps.addr malformedFrame = true ∧
      isMalformed (controlPayload malformedFrame) = true ∧ isMalformed (controlPayload keepaliveFrame) = false ∧
      4 ≤ { Control.reset with fifo := List.replicate 4 ((0 : LaneId), keepaliveFrame) }.fifo.length ∧
      { Control.reset with fifo := List.replicate 3 ((0 : LaneId), keepaliveFrame) }.fifo.length < 4 ∧
      handingOver.control.engine ≠ .idle ∧ State.reset.control.fifo = [] ∧ State.reset.control.engine = .idle :=
  ⟨by decide, keepaliveFrame_good, malformedFrame_good, by decide +kernel, by decide +kernel, by decide +kernel,
    by decide +kernel, by decide +kernel, by simp, by simp, by simp [handingOver], rfl, rfl⟩

theorem witness_InboundFramesGoToTheStationInOrder :
    State.reset.clocked = true ∧ isOversize opaqueFrame = false ∧
      (controlEnabled State.reset.straps.ctlsel 0 &&
        isControl State.reset.control.etherType State.reset.straps.addr opaqueFrame) = false ∧
      exec (.inboundArrival 0 opaqueFrame) State.reset = .next (after (.inboundArrival 0 opaqueFrame) State.reset) :=
  ⟨by decide, opaqueFrame_good.1, by decide +kernel, exec_after _ _⟩

theorem answerFrame_tcp (s : State)
    (h : (controlEnabled s.straps.ctlsel 0 && isControl s.control.etherType s.straps.addr answerFrame) = false) :
    s.inboundTcp 0 answerFrame (segment .inbound true false 6) := ⟨answerFrame_good, h, test_segment_reports.2⟩

theorem witness_InboundPayloadIsCounted :
    (laneIn .active [record]).clocked = true ∧
      (laneIn .active [record]).inboundTcp 0 answerFrame (segment .inbound true false 6) ∧
      (laneIn .active [record]).quiet 0 ∧ (laneIn .active [record]).findRecord 0 flow = some record ∧
      (laneHolding .draining [record] [held]).quiet 0 :=
  ⟨by decide +kernel, answerFrame_tcp _ (by decide +kernel), by decide +kernel, by decide +kernel, by decide +kernel⟩

/-- Of the probe's part: MEASURING the lane of the segment, IDLE, and a lane that does not track. -/
theorem witness_InboundPayloadIsCounted_probe :
    (measuring true).clocked = true ∧ (measuring true).inboundTcp 0 answerFrame (segment .inbound true false 6) ∧
      ((measuring true).lane 0).mode.tracking = true ∧ (measuring true).probe.engine = .measuring ⟨0, .long⟩ ∧
      (∀ r : ProbeRequest, (laneIn .active []).probe.engine = .measuring r → r.lane ≠ 0) ∧
      ((laneIn .bypass []).lane 0).mode.tracking = false ∧ segmentOf .inbound opaqueFrame = none ∧
      min 1099511627775 (1099511627770 + 6) = 1099511627775 :=
  ⟨by decide +kernel, answerFrame_tcp _ (by decide +kernel), by decide +kernel, rfl, (by intro r h; cases h),
    by decide +kernel, by decide +kernel, by decide⟩

/-- Of its first part, and of the other statements on arrivals, on an ACTIVE lane that holds an entry: the record and the
frames of a known connection, of an unknown one, and of one that is held. -/
theorem witness_arrivals_with_entries_held :
    let s := laneHolding .active [record] [heldOther]
    let unknown := laneHolding .active [] [heldOther]
    let held' := laneHolding .active [record] [held]
    s.clocked = true ∧ s.inboundTcp 0 answerFrame (segment .inbound true false 6) ∧ (s.lane 0).mode.tracking = true ∧
      (s.lane 0).queue ≠ [] ∧ s.findRecord 0 flow = some record ∧ unknown.findRecord 0 flow = none ∧
      (unknown.lane 0).mode.tracking = true ∧ (unknown.lookup 0 (segment .inbound true false 6)).role ≠ .exempt ∧
      unknown.inboundTcp 0 answerFrame (segment .inbound true false 6) ∧ unknown.hasRoom 0 = true ∧
      held'.outboundTcp requestFrame (segment .outbound true false 6) ∧ held'.holds 0 flow = true ∧
      held'.findRecord 0 flow = some record :=
  ⟨by decide +kernel, answerFrame_tcp _ (by decide +kernel), by decide +kernel, by decide +kernel, by decide +kernel,
    by decide +kernel, by decide +kernel, by decide +kernel, answerFrame_tcp _ (by decide +kernel), by decide +kernel,
    requestFrame_tcp _ (by decide +kernel), by decide +kernel, by decide +kernel⟩

/-- R148: six payload bytes are counted while MEASURING the lane. -/
theorem test_probe_counts_payload :
    ((measuring true).inboundFrame 0 answerFrame).probe.byteCount = 1000006 := by
  rw [inboundFrame_tcp (answerFrame_tcp _ (by decide +kernel))]
  decide +kernel

/-- Lane 0 in MONITOR with no room under its quota. -/
def fullLane : State := (laneIn .active []).modLane 0 fun x => { x with params := { x.params with quota := 0 } }

/-- Lane 0 in MONITOR with the connection's class EXEMPT. -/
def exemptLane : State :=
  { laneIn .monitor [] with windows := State.reset.windows.set 0 { requestClass with role := .exempt } }

theorem witness_UnknownConnectionIsCreatedOrUntracked :
    (laneIn .monitor []).clocked = true ∧
      (laneIn .monitor []).inboundTcp 0 answerFrame (segment .inbound true false 6) ∧ (laneIn .monitor []).quiet 0 ∧
      (laneIn .monitor []).findRecord 0 flow = none ∧ (laneIn .monitor []).hasRoom 0 = true ∧
      ((laneIn .monitor []).lookup 0 (segment .inbound true false 6)).role ≠ .exempt ∧
      (fullLane.lane 0).params.quota ≤ fullLane.recordCount 0 ∧ fullLane.quiet 0 ∧
      (exemptLane.lookup 0 (segment .inbound true false 6)).role = .exempt :=
  ⟨by decide +kernel, answerFrame_tcp _ (by decide +kernel), by decide +kernel, by decide +kernel, by decide +kernel,
    by decide +kernel, by decide +kernel, by decide +kernel, by decide +kernel⟩

/-- A segment with these flags and payload, from either side. -/
def flagFrame (payload : Nat) : Direction → Byte → Frame
  | .outbound, flags => tcpFrame station remote 1001 6005 flags payload
  | .inbound, flags => tcpFrame remote station 6005 1001 flags payload

/-- The report of such a segment. -/
def flagSegment (payload : Nat) (d : Direction) (flags : Byte) : Segment :=
  ⟨d, flow, 0, flags.getLsbD 1, flags.getLsbD 4, flags.getLsbD 0, flags.getLsbD 2, payload, none, 34⟩

/-- SYN, SYN-ACK, RST, FIN-ACK, SYN-FIN and SYN-FIN-ACK. -/
def flagBytes : List Byte := [0x02, 0x12, 0x04, 0x11, 0x03, 0x13]

/-- These segments of either side, with and without payload, arrive on a lane that does not hold them. -/
theorem flagFrame_arrives (s : State) (he : s.control.etherType = State.reset.control.etherType)
    (ha : s.straps.addr = 0) (hh : s.holds 0 flow = false) (d : Direction) (payload : Nat) (flags : Byte)
    (hp : payload ∈ [0, 6]) (h : flags ∈ flagBytes) :
    s.arrives d 0 (flagFrame payload d flags) (flagSegment payload d flags) := by
  have seg : ∀ f ∈ flagBytes, ∀ n ∈ [0, 6], ∀ d' ∈ [Direction.inbound, .outbound],
      segmentOf d' (flagFrame n d' f) = some (flagSegment n d' f) ∧
        isControl State.reset.control.etherType 0 (flagFrame n d' f) = false := by decide +kernel
  have len : payload ≤ 6 := by simp at hp; omega
  cases d with
  | inbound =>
    have q := seg flags h payload hp .inbound (by simp)
    refine ⟨frameOf_good _ (by simp [station, remote]; omega), ?_, q.1⟩
    rw [he, ha, q.2, Bool.and_false]
  | outbound =>
    have q := seg flags h payload hp .outbound (by simp)
    refine ⟨⟨frameOf_good _ (by simp [station, remote]; omega), ?_, q.1⟩, hh⟩
    rw [he, ha, q.2]

/-- The record of the test connection in a state. -/
def recordIn (st : RecordState) : FlowRecord := { record with state := st }

theorem witness_HandshakeLearnsTheScale :
    (∀ s ∈ [laneIn .monitor [], fullLane, exemptLane],
      s.clocked = true ∧ s.quiet 0 ∧ s.findRecord 0 flow = none ∧
        ∀ d : Direction, ∀ payload ∈ [0, 6], ∀ flags ∈ flagBytes,
          s.arrives d 0 (flagFrame payload d flags) (flagSegment payload d flags)) ∧
      (laneIn .monitor []).hasRoom 0 = true ∧ (fullLane.lane 0).params.quota ≤ fullLane.recordCount 0 ∧
      ((laneIn .monitor []).lookup 0 (flagSegment 0 .inbound 0x02)).role ≠ .exempt ∧
      ((laneIn .monitor []).lookup 0 (flagSegment 0 .outbound 0x02)).role ≠ .exempt ∧
      (exemptLane.lookup 0 (flagSegment 6 .outbound 0x02)).role = .exempt ∧
      (∀ st : RecordState, ∀ d : Direction, ∀ payload ∈ [0, 6], ∀ flags ∈ flagBytes,
        (laneIn .monitor [recordIn st]).arrives d 0 (flagFrame payload d flags) (flagSegment payload d flags) ∧
          (laneIn .monitor [recordIn st]).quiet 0 ∧
          (laneIn .monitor [recordIn st]).findRecord 0 flow = some (recordIn st)) := by
  refine ⟨fun s hs => ?_, by decide +kernel, by decide +kernel, by decide +kernel, by decide +kernel, by decide +kernel,
    fun st d n hn f hf => ⟨flagFrame_arrives (laneIn .monitor [recordIn st]) rfl rfl rfl d n f hn hf, ?_, rfl⟩⟩
  · have q : ∀ s ∈ [laneIn .monitor [], fullLane, exemptLane],
        s.clocked = true ∧ s.quiet 0 ∧ s.findRecord 0 flow = none ∧
          s.control.etherType = State.reset.control.etherType ∧ s.straps.addr = 0 ∧ s.holds 0 flow = false := by
      decide +kernel
    obtain ⟨h1, h2, h3, h4, h5, h6⟩ := q s hs
    exact ⟨h1, h2, h3, fun d n hn f hf => flagFrame_arrives s h4 h5 h6 d n f hn hf⟩
  · exact ⟨rfl, fun h => nomatch h⟩

/-- The inbound ones of an unknown connection: an opening SYN with payload and FIN, and a SYN-ACK with payload. -/
theorem witness_UnknownConnectionIsCreatedOrUntracked_opening :
    (laneIn .monitor []).inboundTcp 0 (flagFrame 6 .inbound 0x03) (flagSegment 6 .inbound 0x03) ∧
      (laneIn .monitor []).inboundTcp 0 (flagFrame 6 .inbound 0x12) (flagSegment 6 .inbound 0x12) ∧
      fullLane.inboundTcp 0 (flagFrame 6 .inbound 0x02) (flagSegment 6 .inbound 0x02) :=
  ⟨flagFrame_arrives (laneIn .monitor []) rfl rfl rfl .inbound 6 _ (by simp) (by simp [flagBytes]),
    flagFrame_arrives (laneIn .monitor []) rfl rfl rfl .inbound 6 _ (by simp) (by simp [flagBytes]),
    flagFrame_arrives fullLane rfl rfl (by decide +kernel) .inbound 6 _ (by simp) (by simp [flagBytes])⟩

theorem witness_GrantsDivideTheBudget :
    ∀ r ∈ (laneIn .monitor [{ record with epochBytes := 1 }]).activeRecords 0, 1 ≤ r.weight ∧ r.weight ≤ 15 := by
  decide +kernel

theorem record_closed (s : State) (r0 : FlowRecord) (h : s.findRecord 0 flow = some r0) (hr : r0.requestOpen = false) :
    ∀ r : FlowRecord, s.findRecord 0 flow = some r → r.requestOpen = false := by
  intro r e
  rw [h] at e
  injection e with e
  rw [← e]; exact hr

theorem witness_AdmittedRequestIsChargedAndLeaves :
    (laneIn .active [record]).clocked = true ∧
      (laneIn .active [record]).outboundTcp requestFrame (segment .outbound true false 6) ∧
      ((laneIn .active [record]).lane 0).queue = [] ∧
      ((laneIn .active [record]).lookup 0 (segment .outbound true false 6)).role = .request ∧
      (∀ r : FlowRecord, (laneIn .active [record]).findRecord 0 flow = some r → r.requestOpen = false) ∧
      (laneIn .active [record]).passesAdmission 0 flow 500 = true ∧
      (laneIn .active []).findRecord 0 flow = none ∧ (laneIn .active []).hasRoom 0 = true ∧
      (laneIn .active []).passesAdmission 0 flow 500 = true ∧ fullLane.hasRoom 0 = false ∧
      fullLane.passesAdmission 0 flow 500 = true :=
  ⟨by decide +kernel, requestFrame_tcp _ (by decide +kernel), by decide +kernel, by decide +kernel,
    record_closed _ record (by decide +kernel) rfl, by decide +kernel, by decide +kernel, by decide +kernel,
    by decide +kernel, by decide +kernel, by decide +kernel⟩

/-- The same for its second part: MONITOR, DRAINING with another connection's entry held, and ACTIVE. -/
theorem witness_AdmittedRequestIsChargedAndLeaves_modes :
    let g := segment .outbound true false 6
    (laneIn .monitor [record]).outboundTcp requestFrame g ∧
      (laneHolding .draining [record] [heldOther]).outboundTcp requestFrame g ∧
      (∀ s ∈ [laneIn .monitor [record], laneHolding .draining [record] [heldOther], laneIn .active [record]],
        s.clocked = true ∧ (s.lane 0).mode.tracking = true ∧ s.holds 0 flow = false ∧
          (s.lookup 0 g).role = .request ∧
          ∀ r ∈ ((s.reportSegment 0 g).findRecord 0 flow).toList, r.requestOpen = false) ∧
      (((laneIn .active [record]).reportSegment 0 g).handOn 0 (laneIn .active [record])).passesAdmission 0 flow 500 =
        true :=
  ⟨requestFrame_tcp _ (by decide +kernel), requestFrame_tcp _ (by decide +kernel), by decide +kernel,
    by decide +kernel⟩

/-- Lane 0 in ACTIVE with no budget: every request of a cost fails admission. -/
def noBudget : State := (laneIn .active [record]).modLane 0 fun x => { x with budget := 0, nMax := 0 }

theorem witness_HeldFrameIsAppended :
    (laneHolding .draining [record] [held]).outboundTcp requestFrame (segment .outbound true false 6) ∧
      (laneHolding .draining [record] [held]).holds 0 flow = true ∧
      (laneHolding .draining [record] [held]).roomFor 0 requestFrame = true ∧
      (laneHolding .active [record] [heldOther]).holds 0 flow = false ∧
      ((laneHolding .active [record] [heldOther]).lane 0).queue ≠ [] ∧
      (laneHolding .active [record] [heldOther]).roomFor 0 requestFrame = true ∧
      noBudget.passesAdmission 0 flow 500 = false ∧ noBudget.roomFor 0 requestFrame = true ∧
      (∀ r : FlowRecord, noBudget.findRecord 0 flow = some r → r.requestOpen = false) :=
  ⟨requestFrame_tcp _ (by decide +kernel), by decide +kernel, by decide +kernel, by decide +kernel, by decide +kernel,
    by decide +kernel, by decide +kernel, by decide +kernel, record_closed _ record (by decide +kernel) rfl⟩

theorem witness_OverflowFlushReleasesTheQueue :
    (laneHolding .draining [record] (List.replicate 48 held)).outboundTcp requestFrame
        (segment .outbound true false 6) ∧
      (laneHolding .draining [record] (List.replicate 48 held)).holds 0 flow = true ∧
      (laneHolding .draining [record] (List.replicate 48 held)).roomFor 0 requestFrame = false ∧
      (laneHolding .active [record] (List.replicate 48 heldOther)).roomFor 0 requestFrame = false ∧
      (laneHolding .active [record] (List.replicate 48 heldOther)).holds 0 flow = false ∧
      ((laneHolding .active [record] (List.replicate 48 heldOther)).lane 0).queue ≠ [] :=
  ⟨requestFrame_tcp _ (by decide +kernel), by decide +kernel, by decide +kernel, by decide +kernel, by decide +kernel,
    by decide +kernel⟩

/-- Of State.Released: an entry of a connection without a record that makes one, and one that no room is left for. -/
theorem witness_Released_without_record :
    let s := laneHolding .draining [] [held, heldOther]
    let full := s.modLane 0 fun x => { x with params := { x.params with quota := 0 } }
    s.findRecord 0 flow = none ∧ makersFor flow [held, heldOther] = [decision] ∧ s.hasRoom 0 = true ∧
      full.hasRoom 0 = false ∧ full.leavesUncharged 0 held = true := by decide +kernel

/-- R107: released without room, two requests of unknown connections are counted UNTRACKED twice. -/
theorem test_release_without_room :
    let full := (laneHolding .draining [] [held, heldOther]).modLane 0 fun x =>
      { x with params := { x.params with quota := 0 } }
    ((full.releaseLane 0).lane 0).counters.untracked = 2 ∧ (full.releaseLane 0).pool = [] := by decide +kernel

theorem witness_UnenforcedLanePassesUnchanged :
    (laneIn .bypass []).clocked = true ∧
      (laneIn .bypass []).outboundTcp requestFrame (segment .outbound true false 6) ∧
      ((laneIn .bypass []).lane 0).mode.enforcing = false ∧ ((laneIn .bypass []).lane 0).queue = [] ∧
      ((laneIn .monitor []).lane 0).mode.enforcing = false :=
  ⟨by decide +kernel, requestFrame_tcp _ (by decide +kernel), by decide +kernel, by decide +kernel, by decide +kernel⟩

/-- Of the clauses with a record: scale unknown, inactive, active with the window lowered, and kept. -/
theorem witness_RewriterChangesThreeFieldsOnly :
    let g := segment .outbound true false 6
    let known (grant expected : Nat) : FlowRecord := { record with scale := some 0, grant := grant, expected := expected }
    segmentOf .outbound requestFrame = some g ∧ segmentOf .outbound opaqueFrame = none ∧
      State.reset.findRecord 0 g.key = none ∧ (laneIn .active [record]).findRecord 0 g.key = some record ∧
      record.scale = none ∧ (laneIn .active [known 0 0]).findRecord 0 g.key = some (known 0 0) ∧
      (known 0 0).active = false ∧ (known 100 5).active = true ∧
      windowOut 100 0 (windowField requestFrame g) none (ackNumber requestFrame g) = 100 ∧
      windowField requestFrame g = 1024 ∧
      windowOut 2000 0 (windowField requestFrame g) none (ackNumber requestFrame g) = 1024 := by decide +kernel

/-- The connection's record, active, with scale 0 and a grant of 100 bytes. -/
def granted : State := laneIn .active [{ record with scale := some 0, grant := 100, expected := 5 }]

theorem witness_ChecksumChangesWithTheWindow :
    segmentOf .outbound requestFrame = some (segment .outbound true false 6) ∧
      (granted.rewrite 0 requestFrame).1 ≠ requestFrame :=
  ⟨test_segment_reports.1, fun e =>
    absurd (congrArg (fun f => windowField f (segment .outbound true false 6)) e) (by decide +kernel)⟩

theorem witness_WindowKeepsTheEdgeAlreadyShown :
    0 ≤ (rightEdge 5000 65535 14 - 6000).toInt ∧ 0 ≤ (rightEdge 5000 1 0 - 5001).toInt ∧
      ((5000 : SeqNum) - 5000).toInt ≤ 0 ∧ ((5001 : SeqNum) - 5000).toInt ≤ (1 * 2 ^ 0 : Nat) := by decide +kernel

/-- Lane 0 sending a frame, with this response slot and ready list. -/
def sending (response : Option Frame) (ready : List Frame) : State :=
  State.reset.modLane 0 fun x => { x with output := some [1], response := response, ready := ready }

theorem witness_OutputStartsResponseThenReady :
    (sending (some [2]) [[3]]).clocked = true ∧ ((sending (some [2]) [[3]]).lane 0).output = some [1] ∧
      ((sending (some [2]) [[3]]).lane 0).response = some [2] ∧ ((sending none [[3]]).lane 0).ready = [[3]] ∧
      ((sending none []).lane 0).ready = [] ∧ ((sending none []).lane 0).mode ≠ .draining ∧
      (∀ r : Frame, (sending none []).control.engine ≠ .handOver 0 r) ∧
      { sending (some [2]) [[3]] with control := handingOver.control }.control.engine = .handOver 0 [3] ∧
      handingOver.control.fifo = [] ∧
      ((((sending none [[3], [4]]).setMode 0 .draining .bypass).modLane 0 fun x =>
        { x with queue := [held] }).lane 0).mode = .draining :=
  ⟨by decide, by decide, by decide, by decide, by decide, by decide, (by intro r h; cases h), rfl, rfl,
    by decide⟩

theorem witness_ResponseIsHandedOver :
    handingOver.rstN = true ∧ handingOver.control.engine = .handOver 0 [3] ∧
      (handingOver.lane 0).response = none ∧ handingOver.control.fifo = [] ∧
      ({ handingOver with control := { handingOver.control with fifo := [(0, keepaliveFrame)] } }).control.fifo =
        [(0, keepaliveFrame)] ∧
      ((handingOver.modLane 0 fun x => { x with response := some [1] }).lane 0).response ≠ none :=
  ⟨rfl, rfl, by decide, rfl, rfl, by decide +kernel⟩

theorem witness_DrainReleasesTheHead :
    let s (ready : List Frame) (queue : List QueueEntry) : State :=
      (laneHolding .draining [record] queue).modLane 0 fun x => { x with output := some [1], ready := ready }
    (∀ ready ∈ [[], [[2]]], ∀ queue ∈ [[held], [held, heldOther], [{ held with kind := .follower }]],
      (s ready queue).clocked = true ∧ ((s ready queue).lane 0).mode = .draining ∧
        ((s ready queue).lane 0).output = some [1] ∧ ((s ready queue).lane 0).response = none ∧
        ((s ready queue).lane 0).ready = ready ∧ ((s ready queue).lane 0).queue = queue) ∧
      (s [] [held]).findRecord 0 held.key = some record ∧ held.kind = .gated decision ∧
      ((s [[2]] [held]).lane 0).drainDue = false ∧ (State.reset.lane 0).drainDue = false := by
  decide +kernel

theorem witness_RefusedCommandChangesNothing :
    (Instr.readLane []).command = some (0x12, []) ∧ (executingWith State.reset 0x12 [] 0).spaceFor 0x12 [] = some 0 ∧
      ([] : List Byte).length < leastParams 0x12 ∧
      (executingWith State.reset 0x12 [8] 0).spaceFor 0x12 [8] = some 0 ∧ namesLane 0x12 = true ∧
      8 ≤ byteAt [8] 0 ∧
      exec (.setLaneMode [5, 2]) State.reset = .next (after (.setLaneMode [5, 2]) State.reset) ∧
      (after (.setLaneMode [5, 2]) State.reset).lastItem = some ⟨0x10, 0x02, [0, 0xFF]⟩ :=
  ⟨rfl, by decide +kernel, by decide, by decide +kernel, by decide, by decide, rfl, by decide +kernel⟩

/-- Of its last part: each status at the first value past a range, none at the last value in it, and the space one byte
short of the full results and equal to them. -/
theorem witness_RefusedCommandChangesNothing_checks :
    refusedBy 0x12 [] = some 0x07 ∧ refusedBy 0x12 [8] = some 0x03 ∧ refusedBy 0x12 [7] = none ∧
      refusedBy 0x21 [64] = some 0x04 ∧ refusedBy 0x21 [63] = none ∧ refusedBy 0x30 [0, 4, 0, 1] = some 0x04 ∧
      refusedBy 0x30 [0, 3, 0xFF, 1] = none ∧ refusedBy 0x10 [0, 3] = some 0x05 ∧ refusedBy 0x16 [0, 2] = some 0x05 ∧
      refusedBy 0x31 [0, 5] = some 0x05 ∧ refusedBy 0x31 (0 :: 4 :: zeros 11) = some 0x07 ∧
      refusedBy 0x31 (0 :: 4 :: zeros 12) = none ∧
      (executingWith State.reset 0x12 [7] 46).spaceFor 0x12 [7] = some 46 ∧
      (executingWith State.reset 0x12 [7] 47).spaceFor 0x12 [7] = some 47 ∧ fullResults 0x12 [7] = 47 := by
  decide +kernel

theorem witness_EngineExecutesTheFrameInOrder :
    (Instr.readChip []).command = some (0x02, []) ∧ executing.rstN = true ∧
      (openService 0 (controlFrame [1, 0, 1, 2, 1, 0, 2, 0])).next = some (0x02, []) ∧
      (openService 0 (controlFrame [1, 0, 1, 2, 1, 0, 2, 0])).next ≠ some (0x01, []) ∧
      (etherHeader (controlFrame [1, 0, 1, 2, 1, 0, 2, 0])).isSome = true ∧
      handingOver.control.engine = .handOver 0 [3] :=
  ⟨rfl, rfl, by decide +kernel, by decide +kernel, by decide +kernel, rfl⟩

/-- Of a frame of two commands, READ-CHIP and one of no code, the engine has the first to execute; after it the walk
decides the second, and the response has both items. -/
theorem test_unknown_command_is_walked :
    let f : InService := ⟨0, [], [0x02, 0, 0x55, 0], 0, 2, [], 1400, false⟩
    f.next = some (0x02, []) ∧
      (InService.walk 1 (f.decideNext .ok [1])).items = [⟨0x02, 0x00, [1]⟩, ⟨0x55, 0x06, []⟩] ∧
      (InService.walk 1 (f.decideNext .abandoned [])).items = [⟨0x02, 0x08, []⟩, ⟨0x55, 0x08, []⟩] := by decide +kernel

theorem witness_KeepaliveClearsTheCount :
    (executingWith State.reset 0x01 [] 1).spaceFor 0x01 [] = some 1 ∧
      State.reset.spaceFor 0x01 [] = some 1490 := by decide +kernel

theorem witness_ReadsReturnAndChangeNothing :
    (executingWith State.reset 0x02 [] 67).spaceFor 0x02 [] = some 67 ∧
      (executingWith State.reset 0x12 [7] 47).spaceFor 0x12 [7] = some 47 ∧
      (executingWith State.reset 0x21 [63] 15).spaceFor 0x21 [63] = some 15 ∧
      (executingWith State.reset 0x30 [7, 3, 0xFF, 19] 4).spaceFor 0x30 [7, 3, 0xFF, 19] = some 4 ∧
      fieldAt [7, 3, 0xFF, 19] 1 2 = 1023 := by decide +kernel

/-- Of the layouts: a probe queue that holds each lane once, and addresses that fit. -/
theorem witness_ReadsReturnAndChangeNothing_layouts :
    { measuring true with probe := ⟨[⟨0, .long⟩], .measuring ⟨0, .long⟩, 7, 0, true⟩ }.ProbeLegal ∧
      record.key.stationAddr.length ≤ 16 ∧ (zeros 16).length = 16 := by decide +kernel

theorem witness_WriteChipStoresThreeValues :
    (executingWith State.reset 0x03 [6, 0, 0, 7, 0xFF, 0xFF] 6).spaceFor 0x03 [6, 0, 0, 7, 0xFF, 0xFF] = some 6 ∧
      fieldAt [6, 0, 0, 7, 0xFF, 0xFF] 0 2 = 0x0600 ∧ fieldAt [5, 0xFF, 0, 0, 0, 0] 0 2 < 0x0600 ∧
      State.reset.spaceFor 0x03 [5, 0xFF, 0, 0, 0, 0] = some 1490 := by decide +kernel

theorem witness_SetTimebaseStagesThePair :
    (executingWith State.reset 0x04 [0, 1, 0, 2] 4).spaceFor 0x04 [0, 1, 0, 2] = some 4 := by decide +kernel

theorem witness_AckEventsClearsTheNamedLatches :
    let s := (State.reset.latchEvent .probe).latchEvent (.overload 3)
    (executingWith s 0x05 [2, 0, 8] 3).spaceFor 0x05 [2, 0, 8] = some 3 ∧
      (executingWith s 0x05 [2, 0, 8] 3).OverloadsLatched := by decide +kernel

/-- R179: WDOG, enabled at power-on, drives ALERT_N low once latched; PROBE, not enabled, does not. -/
theorem test_alert :
    (State.reset.latchEvent .wdog).alertLow = true ∧ (State.reset.latchEvent .probe).alertLow = false ∧
      { State.reset.latchEvent .wdog with rstN := false }.alertLow = false := by decide +kernel

/-- Of the clauses on the probe and on entry to ACTIVE: from MONITOR with the lane queued, and from ACTIVE with the
engine serving the lane, another one, or none; from DRAINING with a head that fails admission. -/
theorem witness_SetLaneModeFollowsTheTable_probe :
    let ready (s : State) (mode : Byte) : State := executingWith s 0x10 [0, mode] 2
    let queued : State := { laneIn .monitor [] with probe := ⟨[⟨0, .short⟩], .waiting ⟨0, .long⟩, 0, 0, true⟩ }
    let other : State := (measuring true).modLane 1 fun x => { x with mode := .monitor }
    let elsewhere : State := { other with probe := ⟨[⟨0, .long⟩], .waiting ⟨1, .short⟩, 0, 0, true⟩ }
    (∀ s ∈ [queued, measuring true, elsewhere, laneIn .monitor [], laneHolding .draining [record] [held]],
      (∀ mode ∈ [(0 : Byte), 2], (ready s mode).spaceFor 0x10 [0, mode] = some 2) ∧ s.keepalive.state ≠ .expired ∧
        s.ProbeLegal) ∧
      (0 : LaneId) ∈ queued.probe.queue.map (·.lane) ∧ 1 ≤ (queued.lane 0).nMax ∧
      (∃ r ∈ (measuring true).probe.engine.serving.toList, r.lane = 0) ∧
      (∀ r ∈ elsewhere.probe.engine.serving.toList, r.lane ≠ 0) ∧ elsewhere.probe.engine ≠ .idle ∧
      (laneIn .monitor []).probe.engine = .idle ∧ ((laneIn .active []).lane 0).queue = [] := by decide +kernel

/-- R118: the return from DRAINING to ACTIVE stops at a head that fails admission. -/
theorem test_return_to_active_gates_again :
    let s := (laneHolding .draining [record] [held]).modLane 0 fun x => { x with budget := 0, nMax := 0 }
    let t := after (.setLaneMode [0, 2]) s
    (t.lane 0).mode = .active ∧ (t.lane 0).queue = [held] ∧ t.probe.engine = .waiting ⟨0, .long⟩ := by decide +kernel

/-- Of the clause on a head that stays at the return: DRAINING, the engine ready for the command, the head blocked. -/
theorem witness_SetLaneModeFollowsTheTable_blocked :
    let s := executingWith ((laneHolding .draining [record] [held]).modLane 0 fun x =>
      { x with budget := 0, nMax := 0 }) 0x10 [0, 2] 2
    s.spaceFor 0x10 [0, 2] = some 2 ∧ (s.lane 0).mode = .draining ∧ (s.lane 0).queue = [held] ∧
      held.kind = .gated decision ∧ s.passesAdmission 0 held.key decision.cost = false ∧
      s.keepalive.state ≠ .expired := by decide +kernel

theorem witness_SetLaneModeFollowsTheTable :
    (executingWith State.reset 0x10 [0, 1] 2).spaceFor 0x10 [0, 1] = some 2 ∧
      (executingWith State.reset 0x10 [7, 2] 2).spaceFor 0x10 [7, 2] = some 2 ∧
      ((laneIn .bypass []).lane 0).mode = .bypass ∧ (laneIn .bypass []).keepalive.state ≠ .expired ∧
      ((laneIn .monitor []).lane 0).mode = .monitor ∧ 1 ≤ ((laneIn .monitor []).lane 0).nMax ∧
      ((laneHolding .active [] [held]).lane 0).mode = .active ∧ ((laneHolding .active [] [held]).lane 0).queue ≠ [] ∧
      ((laneHolding .draining [] [held]).lane 0).mode = .draining := by decide +kernel

theorem witness_WriteLaneParamsClampsAndStores :
    (executingWith State.reset 0x11 (zeros 19) 18).spaceFor 0x11 (zeros 19) = some 18 ∧
      byteAt (zeros 19) 0 = (0 : LaneId).val ∧ ((laneIn .active []).lane 0).mode.enforcing = true ∧
      ((laneIn .failsafe []).lane 0).mode.tracking = false ∧ ((laneIn .monitor []).lane 0).mode = .monitor := by
  decide +kernel

theorem witness_ReadCountersReturnsAndClears :
    (executingWith State.reset 0x13 [7, 1] 49).spaceFor 0x13 [7, 1] = some 49 ∧
      (executingWith State.reset 0x13 [0x80, 0] 13).spaceFor 0x13 [0x80, 0] = some 13 := by decide +kernel

theorem witness_FlushFlowsRemovesTheLanesRecords :
    (executingWith (laneIn .monitor [record]) 0x14 [0] 2).spaceFor 0x14 [0] = some 2 ∧
      ((laneIn .monitor [record]).lane 0).mode.enforcing = false ∧
      ((laneIn .draining []).lane 0).mode.enforcing = true := by decide +kernel

theorem witness_ReleaseLaneEmptiesTheQueue :
    (executingWith (laneHolding .draining [record] [held]) 0x15 [0] 2).spaceFor 0x15 [0] = some 2 ∧
      ((laneHolding .draining [record] [held]).lane 0).mode.enforcing = true ∧
      ((laneIn .monitor []).lane 0).mode.enforcing = false := by decide +kernel

theorem witness_StartProbeQueuesOrMerges :
    (executingWith (laneIn .monitor []) 0x16 [0, 1] 1).spaceFor 0x16 [0, 1] = some 1 ∧
      ((laneIn .monitor []).lane 0).mode.served = true ∧ ((laneIn .draining []).lane 0).mode.served = false ∧
      (0 : LaneId) ∈ ([⟨0, .short⟩] : List ProbeRequest).map (·.lane) ∧
      (0 : LaneId) ∉ ([⟨1, .short⟩] : List ProbeRequest).map (·.lane) ∧
      (laneIn .monitor []).probe.queue = [] ∧ (laneIn .monitor []).probe.engine = .idle ∧
      (measuring true).probe.engine ≠ .idle := by decide +kernel

/-- A lookup: entry 0 covers the request, and with no entry enabled none does. -/
theorem witness_WriteClassReplacesTheEntry_lookup :
    (requestClass.covers 0 (segment .outbound true false 6)) ∧
      (∀ j : Fin 64, ((laneIn .active []).windows.get j).covers 0 (segment .outbound true false 6) → j = 0) ∧
      ∀ i : Fin 64, ¬ (State.reset.windows.get i).covers 0 (segment .outbound true false 6) := by decide +kernel

theorem witness_WriteClassReplacesTheEntry :
    let params : List Byte := [63, 1, 3, 3, 0x17, 0x84, 17, 0, 0, 8, 2, 0, 0, 0, 16]
    (executingWith State.reset 0x20 params 15).spaceFor 0x20 params = some 15 ∧
      boolByte true = BitVec.ofNat 8 (byteAt params 1) ∧ Tier.fallback.code = BitVec.ofNat 8 (byteAt params 2) ∧
      MatchField.remoteAddrLow16.code = BitVec.ofNat 8 (byteAt params 3) ∧
      Role.exempt.code = BitVec.ofNat 8 (byteAt params 10) := by decide +kernel

/-- EVICT-FLOW of the test connection on lane 0. -/
def evictParams : List Byte := [0, 4] ++ station ++ beBytes 2 1001 ++ remote ++ beBytes 2 6005

theorem witness_EvictFlowRemovesTheRecord :
    (executingWith (laneIn .bypass [record]) 0x31 evictParams 3).spaceFor 0x31 evictParams = some 3 ∧
      byteAt evictParams 1 = 4 ∧ 14 ≤ evictParams.length ∧
      (laneIn .bypass [record]).findRecord 0 ⟨.v4, bytesAt evictParams 2 4, fieldAt evictParams 6 2,
        bytesAt evictParams 8 4, fieldAt evictParams 12 2⟩ = some record ∧
      State.reset.findRecord 0 flow = none ∧
      (executingWith State.reset 0x31 (0 :: 6 :: zeros 36) 3).spaceFor 0x31 (0 :: 6 :: zeros 36) = some 3 := by
  decide +kernel

/-- The same of a tracking lane with an entry held. -/
theorem witness_EvictFlowRemovesTheRecord_held :
    let s := executingWith (laneHolding .active [record] [heldOther]) 0x31 evictParams 3
    s.spaceFor 0x31 evictParams = some 3 ∧ (s.lane 0).mode.tracking = true ∧ s.findRecord 0 flow = some record := by
  decide +kernel

theorem witness_ChipResetRestoresEveryBlock :
    (executingWith State.reset 0x7F [] 0).spaceFor 0x7F [] = some 0 ∧
      (∀ l : LaneId, (State.reset.lane l).mode.tracking = false) ∧
      ((laneIn .monitor []).lane 0).mode.tracking = true := by decide +kernel

theorem witness_EpochTickAdvancesTheTimer :
    State.reset.clocked = true ∧ State.reset.timer.staged = none ∧
      { Timer.reset with staged := some (2, 2) }.staged = some (2, 2) ∧
      ((laneIn .active []).lane 0).mode.tracking = true ∧ (measuring true).clocked = true ∧
      (measuring true).probe.engine ≠ .idle ∧ (measuring true).ProbeLegal := by decide +kernel

/-- R151: a staged pair abandons the probe without PROBE. -/
theorem test_timebase_abandons_probe :
    let t := after .epochTick { measuring true with timer := { Timer.reset with staged := some (2, 2) } }
    t.probe = ⟨[], .idle, 0, 0, true⟩ ∧ t.latched .probe = false := by decide +kernel

theorem witness_FlowTableTickAgesTrackedRecords :
    (laneIn .active [record]).clocked = true ∧
      (∀ l : LaneId, ((laneIn .active [record]).lane l).mode = .active →
        ((laneIn .active [record]).lane l).queue = []) := by decide +kernel

theorem witness_SilentRecordTimesOutOrAgesOut :
    let silent (n : Nat) : FlowRecord := { record with seen := false, idleTicks := n, expected := 500 }
    (laneIn .active [silent 16]).PoolCanonical ∧
      (laneIn .active [silent 16]).silentRecord (0 : SlotId).val = some (silent 16) ∧
      (laneIn .active [silent 16]).quiet 0 ∧ (LaneParams.reset).timeout = 16 ∧
      (laneIn .active [silent 64]).silentRecord (0 : SlotId).val = some (silent 64) ∧
      (LaneParams.reset).ageLimit = 64 := by decide +kernel

/-- The same with an entry held, and of a CLOSING record. -/
theorem witness_SilentRecordTimesOutOrAgesOut_held :
    let silent (n : Nat) : FlowRecord := { record with seen := false, idleTicks := n, expected := 500 }
    let s := laneHolding .active [silent 16] [heldOther]
    let closing := laneIn .active [{ silent 16 with state := .closing }]
    s.PoolCanonical ∧ s.silentRecord (0 : SlotId).val = some (silent 16) ∧ (s.lane 0).queue ≠ [] ∧
      closing.silentRecord (0 : SlotId).val = some { silent 16 with state := .closing } := by decide +kernel

/-- Lane 0 in ACTIVE without budget, holding a GATED head. -/
def blockedLane : State := noBudget.modLane 0 fun x => { x with queue := [held] }

theorem witness_GateTickLeavesOnlyBlockedHeads :
    blockedLane.clocked = true ∧ (blockedLane.lane 0).mode = .active ∧
      ((after .gateTick blockedLane).lane 0).queue = [{ held with heldTicks := 1 }] := by
  decide +kernel

/-- Of the clause on a head that stays. -/
theorem witness_GateTickLeavesOnlyBlockedHeads_blocked :
    (blockedLane.lane 0).queue = [held] ∧ held.kind = .gated decision ∧
      min 255 (held.heldTicks + 1) < (blockedLane.lane 0).params.holdLimit ∧
      blockedLane.passesAdmission 0 held.key decision.cost = false := by decide +kernel

/-- R109: at a blocked head a re-evaluation ends at once, and nothing happens. -/
theorem test_reevaluation_ends_at_a_blocked_head (force : Bool) :
    blockedLane.Reevaluated force 0 [] blockedLane :=
  .blocked (e := held) (rest := []) (d := decision) (by decide +kernel) rfl (by decide +kernel) fun _ => by decide +kernel

/-- R111: the second head, below H and failing admission, stays when the first is forced. -/
theorem test_forced_head_leaves_alone :
    let other : FlowRecord := { record with key := { flow with stationPort := 1004 }, expected := 114000 }
    let t := after (.holdLimit 0) (laneHolding .active [other] [heldOther, held])
    (t.lane 0).queue = [held] ∧ (t.lane 0).counters.forced = 1 := by decide +kernel

theorem witness_HoldLimitForcesTheHead :
    let s := laneHolding .active [record] [heldOther, held]
    s.clocked = true ∧ (s.lane 0).mode = .active ∧ (s.lane 0).queue = [heldOther, held] ∧
      heldOther.kind = .gated decision ∧ (s.lane 0).params.holdLimit = heldOther.heldTicks := by
  refine ⟨by decide +kernel, by decide +kernel, by decide +kernel, rfl, by decide +kernel⟩

theorem witness_ProbeTickCountsWindowsAndIntervals :
    (measuring true).clocked = true ∧
      { measuring true with probe := ⟨[], .waiting ⟨0, .long⟩, 0, 0, true⟩ }.probe.engine = .waiting ⟨0, .long⟩ ∧
      { measuring true with probe := ⟨[], .measuring ⟨0, .long⟩, 6, 0, true⟩ }.probe.windowTicks + 1 < 8 := by
  decide +kernel

/-- Of the clause on requests: K reached on lanes 0 and 1, the engine IDLE, and at the end tick of its window. -/
def intervalsDue (probe : Probe) : State :=
  let due (x : LaneState) : LaneState :=
    { x with mode := .active, params := { x.params with probeInterval := 3 }, intervalCount := 2 }
  { (State.reset.modLane 0 due).modLane 1 due with probe := probe }

theorem witness_ProbeTickCountsWindowsAndIntervals_requests :
    (intervalsDue Probe.reset).clocked = true ∧ (intervalsDue Probe.reset).ProbeLegal ∧
      (intervalsDue Probe.reset).probe.engine = .idle ∧
      (intervalsDue ⟨[⟨1, .long⟩], .measuring ⟨0, .short⟩, 1, 0, true⟩).ProbeLegal := by decide +kernel

/-- R152: of two requests at one tick the lower lane is granted and the other one waits; behind a completion, a lane
granted is queued afresh. -/
theorem test_interval_requests_in_order :
    (after .probeTick (intervalsDue Probe.reset)).probe = ⟨[⟨1, .short⟩], .waiting ⟨0, .short⟩, 0, 0, true⟩ ∧
      (after .probeTick (intervalsDue ⟨[⟨1, .long⟩], .measuring ⟨0, .short⟩, 1, 0, true⟩)).probe =
        ⟨[⟨0, .short⟩, ⟨1, .short⟩], .waiting ⟨1, .long⟩, 0, 0, true⟩ := by decide +kernel

theorem witness_WindowStartAndIntervalRequest :
    let s := (laneIn .active []).modLane 0 fun x =>
      { x with params := { x.params with probeInterval := 3 }, intervalCount := 2 }
    s.clocked = true ∧ (s.lane 0).mode = .active ∧ (s.lane 0).params.probeInterval = (s.lane 0).intervalCount + 1 ∧
      s.probe.queue = [] ∧ s.probe.engine = .idle ∧
      { s with probe := ⟨[⟨0, .long⟩], .waiting ⟨1, .long⟩, 0, 0, true⟩ }.probe.engine = .waiting ⟨1, .long⟩ := by
  decide +kernel

theorem witness_ProbeCompletionWritesTheRate :
    let s := { measuring true with pool := [{ record with expected := 57182 }] }
    s.clocked = true ∧ s.probe.engine = .measuring ⟨0, .long⟩ ∧ s.probe.windowTicks + 1 = 8 ∧ s.probe.valid = true ∧
      (s.lane 0).budget / 2 = s.c 0 ∧ (measuring false).probe.valid = false := by decide +kernel

/-- Of the clauses on the grant after it: a request of a served lane waits. -/
theorem witness_ProbeCompletionWritesTheRate_grant :
    let s := intervalsDue ⟨[⟨1, .long⟩], .measuring ⟨0, .short⟩, 1, 0, true⟩
    s.clocked = true ∧ s.ProbeLegal ∧ s.probe.engine = .measuring ⟨0, .short⟩ ∧ 2 ≤ s.probe.windowTicks + 1 ∧
      s.probe.queue = [⟨1, .long⟩] := by decide +kernel

theorem witness_KeepaliveTickCountsAndExpires :
    State.reset.clocked = true ∧ State.reset.keepalive.state ≠ .running ∧
      { State.reset with keepalive := ⟨3, 1, .running⟩ }.keepalive.count + 1 < 3 ∧
      3 ≤ { laneHolding .active [] [held] with keepalive := ⟨3, 2, .running⟩ }.keepalive.count + 1 ∧
      ((laneHolding .active [] [held]).lane 0).mode.tracking = true := by decide +kernel

theorem witness_ModesChangeOnlyAtNamedEvents :
    exec (.setLaneMode [5, 1]) State.reset = .next (after (.setLaneMode [5, 1]) State.reset) ∧
      ((after (.setLaneMode [5, 1]) State.reset).lane 5).mode ≠ (State.reset.lane 5).mode :=
  ⟨rfl, by decide +kernel⟩

theorem witness_FrozenRecordsStand :
    (laneIn .bypass [record]).PoolCanonical ∧ (laneIn .bypass [record]).ProbeLegal ∧
      exec (.flushFlows [0]) (laneIn .bypass [record]) = .next (after (.flushFlows [0]) (laneIn .bypass [record])) ∧
      ((laneIn .bypass [record]).lane 0).mode.tracking = false ∧
      (after (.flushFlows [0]) (laneIn .bypass [record])).records 0 ≠ (laneIn .bypass [record]).records 0 :=
  ⟨by decide +kernel, by decide +kernel, rfl, by decide +kernel, by decide +kernel⟩

theorem witness_PortEventsStayOnTheirLane :
    (Instr.outboundArrival 3 requestFrame).portLane = some 3 ∧
      exec (.outboundArrival 3 requestFrame) (laneIn .active [record]) =
        .next (after (.outboundArrival 3 requestFrame) (laneIn .active [record])) := ⟨rfl, exec_after _ _⟩

theorem witness_NoFrameIsLostOrMade :
    (laneHolding .active [record] [heldOther]).QueuesLegal ∧ (laneHolding .active [record] [heldOther]).clocked = true ∧
      isOversize requestFrame = false ∧
      isControl (laneIn .active []).control.etherType (laneIn .active []).straps.addr requestFrame = false ∧
      exec .gateTick (laneHolding .active [record] [heldOther]) =
        .next (after .gateTick (laneHolding .active [record] [heldOther])) :=
  ⟨by decide +kernel, by decide +kernel, requestFrame_good.1, by decide +kernel, exec_after _ _⟩

/-- A state that meets every invariant with a record, a held frame and a command waiting. -/
def busy : State :=
  let s := laneHolding .active [{ record with epochBytes := 1, grant := 114364 }] [heldOther]
  { s.modLane 0 fun x => { x with output := some [1] } with
    keepalive := ⟨3, 2, .running⟩
    probe := ⟨[⟨0, .long⟩], .measuring ⟨0, .long⟩, 7, 0, true⟩
    pending := [.gateTick] }

/-- One witness for the seven statements that a step keeps an invariant. -/
theorem witness_StepKeeps :
    busy.TargetsLegal ∧ busy.QueuesLegal ∧ busy.StoreWithin ∧ busy.PoolCanonical ∧ busy.KeysUnique ∧ busy.QuotasKept ∧
      busy.ExpectedWithin ∧ busy.GrantsWithin ∧ busy.OverloadsLatched ∧ busy.KeepaliveLegal ∧ busy.ProbeLegal ∧
      busy.ControlLegal ∧ busy.Sealed ∧ busy.ArbitersLegal ∧ busy.ParamsInRange ∧ busy.ScalesLegal ∧
      busy.HeadsGated ∧ busy.Recomputed ∧ busy.WeightsLegal ∧ busy.KeysLegal ∧
      step busy = .next (after .gateTick { busy with pending := [] }) := by
  refine ⟨?_, ?_, ?_, ?_, ?_, ?_, ?_, ?_, ?_, ?_, ?_, ?_, ?_, ?_, ?_, ?_, ?_, ?_, ?_, ?_, rfl⟩
  all_goals decide +kernel

/-- Of the second part of StepKeepsQueuesAndStore: a timeout lowers C on an ACTIVE lane whose head stays blocked. -/
theorem witness_StepKeepsQueuesAndStore_reevaluates :
    let silent : FlowRecord := { record with seen := false, idleTicks := 16, expected := 500 }
    let other : FlowRecord := { record with slot := 1, key := { flow with stationPort := 1002 }, expected := 500000 }
    let s := laneHolding .active [silent, other] [heldOther]
    let t := after (.expectationTimeout 0) s
    s.PoolCanonical ∧ exec (.expectationTimeout 0) s = .next t ∧ (s.lane 0).mode = .active ∧
      (t.lane 0).mode = .active ∧ t.c 0 < s.c 0 ∧ (t.lane 0).queue = [heldOther] :=
  ⟨by decide +kernel, rfl, by decide +kernel, by decide +kernel, by decide +kernel, by decide +kernel⟩

/-- Of the same part: a timeout lets the first of two entries go, whose charge brings C back to what it was; the second
stays blocked. -/
theorem witness_StepKeepsQueuesAndStore_takes_off :
    let silent : FlowRecord := { record with seen := false, idleTicks := 16, expected := 500 }
    let other : FlowRecord := { record with slot := 1, key := { flow with stationPort := 1004 }, expected := 113600 }
    let third : QueueEntry := { held with key := { flow with stationPort := 1003 }, frame := [3] }
    let s := laneHolding .active [silent, other] [heldOther, third]
    let t := after (.expectationTimeout 0) s
    s.PoolCanonical ∧ (s.lane 0).mode = .active ∧ (t.lane 0).mode = .active ∧ t.c 0 = s.c 0 ∧
      (t.lane 0).queue = [third] ∧
      ¬ ((s.lane 0).queue.map fun x => { x with heldTicks := 0 }) <+:
        ((t.lane 0).queue.map fun x => { x with heldTicks := 0 }) := by decide +kernel

end Sys2Proof.Tests
end

/-! SUPPORT. What an event can do to the flow record pool, said once: records change within their slot or leave, and a
record comes by a creation alone (R54, R57, R64, R72). -/

namespace Sys2Proof.Machine

/-! ### One record -/

/-- What any operation on a record keeps of it: its slot, lane and key stand, its expected stays within 24 bits, its
scale stays legal, and a new weight is one that the decisions at hand supply. -/
structure FlowRecord.Changed (W : Nat → Prop) (r r' : FlowRecord) : Prop where
  slot : r'.slot = r.slot
  lane : r'.lane = r.lane
  key : r'.key = r.key
  expected : r'.expected ≤ max r.expected Config.max24
  scale : r.scaleLegal = true → r'.scaleLegal = true
  weight : r'.weight = r.weight ∨ W r'.weight

/-- The scale option of a segment is at most 14 (R10). -/
abbrev Segment.shiftLegal (g : Segment) : Prop := ∀ sc : Nat, g.scaleOption = some sc → sc ≤ 14

section

variable {W : Nat → Prop}

theorem FlowRecord.Changed.refl (r : FlowRecord) : r.Changed W r :=
  ⟨rfl, rfl, rfl, le_max_left .., id, .inl rfl⟩

theorem FlowRecord.Changed.trans {r r' r'' : FlowRecord} (h : r.Changed W r') (h' : r'.Changed W r'') :
    r.Changed W r'' where
  slot := h'.slot.trans h.slot
  lane := h'.lane.trans h.lane
  key := h'.key.trans h.key
  expected := h'.expected.trans (max_le h.expected (le_max_right ..))
  scale := h'.scale ∘ h.scale
  weight := by
    obtain e | w := h'.weight
    · rw [e]; exact h.weight
    · exact .inr w

/-- A change that leaves the six things as they stand. -/
theorem FlowRecord.Changed.of_same {r r' : FlowRecord} (slot : r'.slot = r.slot) (lane : r'.lane = r.lane)
    (key : r'.key = r.key) (expected : r'.expected = r.expected) (scale : r'.scale = r.scale)
    (state : r'.state = r.state) (weight : r'.weight = r.weight) : r.Changed W r' :=
  ⟨slot, lane, key, expected ▸ le_max_left .., by simp only [FlowRecord.scaleLegal, scale, state]; exact id, .inl weight⟩

theorem agreedScale_le {o : Option Nat} (h : ∀ sc : Nat, o = some sc → sc ≤ 14) (p : Bool) : agreedScale o p ≤ 14 := by
  unfold agreedScale
  split
  · cases o with
    | none => exact Nat.zero_le _
    | some sc => exact h sc rfl
  · exact Nat.zero_le _

/-- A record OPEN or CLOSING, or opened by the remote, is legal when its scale is. -/
theorem scaleLegal_iff (r : FlowRecord) : r.scaleLegal = true ↔
    (∀ sc : Nat, r.scale = some sc → sc ≤ 14) ∧
      ∀ sc : Nat, r.state = .learning (.station (some sc)) → sc ≤ 14 := by
  unfold FlowRecord.scaleLegal
  rw [Bool.and_eq_true]
  refine and_congr ?_ ?_
  · cases r.scale <;> simp
  · split <;> simp_all

theorem handshake_station {g : Segment} {sc : Nat} (h : g.handshake = .station (some sc)) : g.scaleOption = some sc := by
  unfold Segment.handshake at h
  split at h
  · exact Handshake.station.inj h
  · cases h

theorem changed_reuse (r : FlowRecord) {g : Segment} {d : ClassDecision} (hg : g.shiftLegal) (hd : W d.weight) :
    r.Changed W (r.reuse g d) where
  slot := rfl
  lane := rfl
  key := rfl
  expected := Nat.zero_le _
  scale _ := (scaleLegal_iff _).mpr
    ⟨(fun _ h => nomatch h), fun sc h => hg sc (handshake_station (RecordState.learning.inj h))⟩
  weight := by
    unfold FlowRecord.reuse
    by_cases e : d.role = .exempt
    · exact .inl (if_pos e)
    · exact .inr (by simpa [e] using hd)

/-- A SYN on a record (R60, R61). -/
theorem changed_onSyn (r : FlowRecord) {g : Segment} {d : ClassDecision} (hg : g.shiftLegal) (hd : W d.weight) :
    r.Changed W (r.onSyn g d) := by
  unfold FlowRecord.onSyn
  split
  · refine ⟨rfl, rfl, rfl, le_max_left .., fun h => (scaleLegal_iff _).mpr ⟨((scaleLegal_iff _).mp h).1, ?_⟩, .inl rfl⟩
    exact fun sc e => hg sc (Handshake.station.inj (RecordState.learning.inj e))
  · refine ⟨rfl, rfl, rfl, le_max_left .., fun h => (scaleLegal_iff _).mpr ⟨((scaleLegal_iff _).mp h).1, ?_⟩, .inl rfl⟩
    exact fun sc e => nomatch e
  · rename_i o st _
    refine ⟨rfl, rfl, rfl, le_max_left .., fun h => (scaleLegal_iff _).mpr ⟨fun sc e => ?_, fun _ e => nomatch e⟩, .inl rfl⟩
    obtain rfl := Option.some.inj e
    exact agreedScale_le (fun sc e' => ((scaleLegal_iff _).mp h).2 sc (st.trans (by rw [e']))) _
  · refine ⟨rfl, rfl, rfl, le_max_left .., fun _ => (scaleLegal_iff _).mpr ⟨fun sc e => ?_, fun _ e => nomatch e⟩, .inl rfl⟩
    obtain rfl := Option.some.inj e
    exact agreedScale_le hg _
  · split
    · exact .refl r
    · exact changed_reuse r hg hd
  · split
    · exact .refl r
    · exact changed_reuse r hg hd

/-- Step 3 of R59. -/
theorem changed_closing (r : FlowRecord) : r.Changed W { r with state := .closing } :=
  ⟨rfl, rfl, rfl, le_max_left .., fun h => (scaleLegal_iff _).mpr ⟨((scaleLegal_iff _).mp h).1, fun _ e => nomatch e⟩,
    .inl rfl⟩

/-- Payload counted on a record (R63). -/
theorem changed_countPayload (r : FlowRecord) (len : Nat) (syn : Bool) : r.Changed W (r.countPayload len syn) where
  slot := rfl
  lane := rfl
  key := rfl
  expected := (Nat.sub_le ..).trans (le_max_left ..)
  scale h := by
    obtain ⟨hs, ho⟩ := (scaleLegal_iff r).mp h
    refine (scaleLegal_iff _).mpr ⟨fun sc e => ?_, fun sc e => ?_⟩
    · simp only [FlowRecord.countPayload] at e
      split at e
      · split at e
        · exact hs sc e
        · cases e
      all_goals exact hs sc e
    · simp only [FlowRecord.countPayload] at e
      split at e
      · rename_i k
        split at e
        · exact ho sc (k.trans e)
        · cases e
      all_goals cases e
  weight := .inl rfl

/-- A charge (R64). -/
theorem changed_charge (r : FlowRecord) (cost : Nat) : r.Changed W (r.charge cost) :=
  ⟨rfl, rfl, rfl, (min_le_left ..).trans (le_max_right ..),
    fun h => (scaleLegal_iff _).mpr ((scaleLegal_iff _).mp h), .inl rfl⟩

/-- Steps 1 and 2 of the tick (R69). -/
theorem changed_age (r : FlowRecord) (held : Bool) : r.Changed W (r.age held) :=
  .of_same rfl rfl rfl rfl rfl rfl rfl

/-- Steps 3 to 5 of the tick (R69). -/
theorem changed_limits {r r' : FlowRecord} {p : LaneParams} (h : r.limits p = some r') : r.Changed W r' := by
  rw [FlowRecord.limits_eq r r' p h]
  split
  · exact ⟨rfl, rfl, rfl, Nat.zero_le _, fun h => (scaleLegal_iff _).mpr ((scaleLegal_iff _).mp h), .inl rfl⟩
  · exact .refl r

end

/-! ### The pool -/

/-- What an event can do to the pool. Records change or leave, or one is created in the lowest free slot: of a
connection of its lane that has none, below the lane's quota and the pool's size, from a key and a decision's weight that
the event supplies (R54, R57, R58). -/
inductive PoolMoves (quota : LaneId → Nat) (K : FlowKey → Prop) (W : Nat → Prop) :
    List FlowRecord → List FlowRecord → Prop where
  | refl (p : List FlowRecord) : PoolMoves quota K W p p
  | trans {p p' p'' : List FlowRecord} (first : PoolMoves quota K W p p') (second : PoolMoves quota K W p' p'') :
      PoolMoves quota K W p p''
  | changed (p : List FlowRecord) (f : FlowRecord → Option FlowRecord)
      (change : ∀ r r' : FlowRecord, f r = some r' → r.Changed W r') : PoolMoves quota K W p (p.filterMap f)
  | created (p : List FlowRecord) (l : LaneId) (key : FlowKey) (st : RecordState) (d : ClassDecision)
      (supplied : K key ∧ W d.weight) (legal : ∀ sc : Nat, st = .learning (.station (some sc)) → sc ≤ 14)
      (fresh : ∀ r ∈ p, ¬ (r.lane = l ∧ r.key = key))
      (room : (p.filter fun r => r.lane = l).length < quota l ∧ p.length < Config.poolSlots) :
      PoolMoves quota K W p (insertRecord (newRecord (lowestFree 0 p) l key st d) p)

section

variable {quota : LaneId → Nat} {K : FlowKey → Prop} {W : Nat → Prop}

theorem PoolMoves.map (p : List FlowRecord) {f : FlowRecord → FlowRecord} (h : ∀ r : FlowRecord, r.Changed W (f r)) :
    PoolMoves quota K W p (p.map f) := by
  rw [← List.filterMap_eq_map]
  exact .changed p _ fun r r' e => Option.some.inj e ▸ h r

theorem PoolMoves.filter (p : List FlowRecord) (b : FlowRecord → Bool) : PoolMoves quota K W p (p.filter b) := by
  rw [← List.filterMap_eq_filter]
  refine .changed p _ fun r r' e => ?_
  simp only [Option.guard] at e
  split at e
  · exact Option.some.inj e ▸ .refl r
  · cases e

/-- The pool stays canonical (R54). -/
theorem PoolMoves.keeps_poolWf {p p' : List FlowRecord} (h : PoolMoves quota K W p p') (wf : poolWf p = true) :
    poolWf p' = true := by
  induction h with
  | refl => exact wf
  | trans _ _ ih1 ih2 => exact ih2 (ih1 wf)
  | changed p f change => exact poolSlotsFrom_filterMap f (fun r r' e => (change r r' e).slot) wf
  | created p l key st d _ _ _ room =>
    refine poolSlotsFrom_insert _ wf rfl ?_
    have := lowestFree_le p 0
    simp only [newRecord]
    omega

/-- Lane and key of the records after some changed or left are those of some before, in their order. -/
theorem keys_filterMap_sublist {f : FlowRecord → Option FlowRecord}
    (h : ∀ r r' : FlowRecord, f r = some r' → r.Changed W r') (p : List FlowRecord) :
    ((p.filterMap f).map fun r => (r.lane, r.key)).Sublist (p.map fun r => (r.lane, r.key)) := by
  induction p with
  | nil => exact .refl _
  | cons r rest ih =>
    cases e : f r with
    | none => rw [List.filterMap_cons_none e]; exact ih.cons _
    | some r' =>
      rw [List.filterMap_cons_some e, List.map_cons, List.map_cons, (h r r' e).lane, (h r r' e).key]
      exact ih.cons_cons _

/-- Keys stay distinct within each lane (R54). -/
theorem PoolMoves.keeps_unique {p p' : List FlowRecord} (h : PoolMoves quota K W p p')
    (unique : (p.map fun r => (r.lane, r.key)).Nodup) : (p'.map fun r => (r.lane, r.key)).Nodup := by
  induction h with
  | refl => exact unique
  | trans _ _ ih1 ih2 => exact ih2 (ih1 unique)
  | changed p f change => exact unique.sublist (keys_filterMap_sublist change p)
  | created p l key st d _ _ fresh _ =>
    refine (((insertRecord_perm _ p).map _).nodup_iff).mpr (List.nodup_cons.mpr ⟨?_, unique⟩)
    simp only [List.mem_map, not_exists, not_and]
    rintro r hr e
    exact fresh r hr (Prod.mk.inj e)

/-- A lane's records do not grow in number when records change or leave. -/
theorem count_filterMap_le {f : FlowRecord → Option FlowRecord}
    (h : ∀ r r' : FlowRecord, f r = some r' → r.Changed W r') (p : List FlowRecord) (l : LaneId) :
    ((p.filterMap f).filter fun r => r.lane = l).length ≤ (p.filter fun r => r.lane = l).length := by
  have e : ∀ q : List FlowRecord, (q.filter fun r => r.lane = l).length =
      ((q.map fun r => (r.lane, r.key)).filter fun x => x.1 = l).length := by
    intro q
    rw [List.filter_map, List.length_map]
    rfl
  rw [e, e]
  exact ((keys_filterMap_sublist h p).filter _).length_le

/-- No lane comes above its quota (R57). -/
theorem PoolMoves.keeps_quota {p p' : List FlowRecord} (h : PoolMoves quota K W p p') (l : LaneId)
    (within : (p.filter fun r => r.lane = l).length ≤ quota l) : (p'.filter fun r => r.lane = l).length ≤ quota l := by
  induction h with
  | refl => exact within
  | trans _ _ ih1 ih2 => exact ih2 (ih1 within)
  | changed p f change => exact (count_filterMap_le change p l).trans within
  | created p l' key st d _ _ _ room =>
    by_cases e : l' = l
    · subst e
      rw [recordCount_insert (newRecord (lowestFree 0 p) l' key st d) l' rfl]
      exact room.1
    · rw [filter_insertRecord_other _ (Ne.symm e)]
      exact within

/-- What holds of every record, is kept by each change and holds of each new record, goes on holding. -/
theorem PoolMoves.keeps_all {R : FlowRecord → Prop} (change : ∀ r r' : FlowRecord, r.Changed W r' → R r → R r')
    (new : ∀ (slot : Nat) (l : LaneId) (key : FlowKey) (st : RecordState) (d : ClassDecision), K key → W d.weight →
      (∀ sc : Nat, st = .learning (.station (some sc)) → sc ≤ 14) → R (newRecord slot l key st d))
    {p p' : List FlowRecord} (h : PoolMoves quota K W p p') (all : ∀ r ∈ p, R r) : ∀ r ∈ p', R r := by
  induction h with
  | refl => exact all
  | trans _ _ ih1 ih2 => exact ih2 (ih1 all)
  | changed p f hf =>
    intro r' hr'
    obtain ⟨r, hr, e⟩ := List.mem_filterMap.mp hr'
    exact change r r' (hf r r' e) (all r hr)
  | created p l key st d supplied legal _ _ =>
    intro r hr
    obtain rfl | hr := (mem_insertRecord _ r p).mp hr
    · exact new _ l key st d supplied.1 supplied.2 legal
    · exact all r hr

/-- Every expected stays within 24 bits (R55, R64). -/
theorem PoolMoves.keeps_expected {p p' : List FlowRecord} (h : PoolMoves quota K W p p')
    (within : ∀ r ∈ p, r.expected ≤ Config.max24) : ∀ r ∈ p', r.expected ≤ Config.max24 :=
  h.keeps_all (fun _ _ c hr => c.expected.trans (max_le hr le_rfl)) (fun _ _ _ _ _ _ _ _ => Nat.zero_le _) within

/-- Every scale stays at most 14 (R10, R60). -/
theorem PoolMoves.keeps_scales {p p' : List FlowRecord} (h : PoolMoves quota K W p p')
    (legal : ∀ r ∈ p, r.scaleLegal = true) : ∀ r ∈ p', r.scaleLegal = true :=
  h.keeps_all (fun _ _ c hr => c.scale hr)
    (fun _ _ _ _ _ _ _ hst => (scaleLegal_iff _).mpr ⟨(fun _ e => nomatch e), hst⟩) legal

/-- Keys are those there were and those supplied. -/
theorem PoolMoves.keeps_keys {p p' : List FlowRecord} (h : PoolMoves quota K W p p') (legal : ∀ r ∈ p, K r.key) :
    ∀ r ∈ p', K r.key :=
  h.keeps_all (R := fun r => K r.key) (fun _ _ c hr => c.key ▸ hr) (fun _ _ _ _ _ hk _ _ => hk) legal

/-- Weights are those there were and those supplied. -/
theorem PoolMoves.keeps_weights {p p' : List FlowRecord} (h : PoolMoves quota K W p p') (legal : ∀ r ∈ p, W r.weight) :
    ∀ r ∈ p', W r.weight :=
  h.keeps_all (R := fun r => W r.weight) (fun _ _ c hr => c.weight.elim (fun e => e ▸ hr) id)
    (fun _ _ _ _ _ _ hw _ => hw) legal

/-! ### The operations on the pool -/

theorem fresh_of_findRecord_none {s : State} {l : LaneId} {key : FlowKey} (h : s.findRecord l key = none) :
    ∀ r ∈ s.pool, ¬ (r.lane = l ∧ r.key = key) := by
  intro r hr
  have := List.find?_eq_none.mp h r hr
  simpa using this

theorem poolMoves_modRecord (s : State) (l : LaneId) (key : FlowKey) {f : FlowRecord → FlowRecord}
    (h : ∀ r : FlowRecord, r.Changed W (f r)) : PoolMoves quota K W s.pool (s.modRecord l key f).pool := by
  refine .map s.pool fun r => ?_
  split
  · exact h r
  · exact .refl r

theorem poolMoves_createRecord {s : State} {l : LaneId} {key : FlowKey} {st : RecordState} {d : ClassDecision}
    (hq : quota l = (s.lane l).params.quota) (hk : K key) (hd : W d.weight)
    (hst : ∀ sc : Nat, st = .learning (.station (some sc)) → sc ≤ 14) (fresh : s.findRecord l key = none) :
    PoolMoves quota K W s.pool (s.createRecord l key st d).pool := by
  unfold State.createRecord
  split
  · exact .refl _
  · split
    · rename_i room
      simp only [State.hasRoom, Bool.and_eq_true, decide_eq_true_eq] at room
      exact .created s.pool l key st d ⟨hk, hd⟩ hst (fresh_of_findRecord_none fresh) ⟨hq ▸ room.1, room.2⟩
    · exact .refl _

theorem poolMoves_stepSyn {s : State} {l : LaneId} {g : Segment} {d : ClassDecision}
    (hq : quota l = (s.lane l).params.quota) (hk : K g.key) (hd : W d.weight) (hg : g.shiftLegal) :
    PoolMoves quota K W s.pool (s.stepSyn l g d).pool := by
  unfold State.stepSyn
  split
  · exact .refl _
  · split
    · exact poolMoves_modRecord s l g.key fun r => changed_onSyn r hg hd
    · rename_i fresh
      split
      · exact .refl _
      · exact poolMoves_createRecord hq hk hd
          (fun sc e => hg sc (handshake_station (RecordState.learning.inj e))) fresh

theorem poolMoves_stepClose (s : State) (l : LaneId) (g : Segment) :
    PoolMoves quota K W s.pool (s.stepClose l g).pool := by
  unfold State.stepClose
  split
  · exact poolMoves_modRecord s l g.key changed_closing
  · exact .refl _

theorem poolMoves_stepPayload {s : State} {l : LaneId} {g : Segment} {d : ClassDecision}
    (hq : quota l = (s.lane l).params.quota) (hk : K g.key) (hd : W d.weight) :
    PoolMoves quota K W s.pool (s.stepPayload l g d).pool := by
  unfold State.stepPayload
  split
  · refine .trans ?_ (poolMoves_modRecord _ l g.key fun r => changed_countPayload r g.payloadLen g.syn)
    split
    · rename_i fresh
      simp only [Bool.and_eq_true, Option.isNone_iff_eq_none] at fresh
      exact poolMoves_createRecord hq hk hd (fun _ e => nomatch e) fresh.1
    · exact .refl _
  · exact .refl _

/-- A segment report (R59). -/
theorem poolMoves_reportSegment {s : State} {l : LaneId} {g : Segment}
    (hq : quota l = (s.lane l).params.quota) (hk : K g.key) (hd : W (s.lookup l g).weight) (hg : g.shiftLegal) :
    PoolMoves quota K W s.pool (s.reportSegment l g).pool := by
  have a := (accounted_stepSyn s l g (s.lookup l g)).trans (accounted_stepClose _ l g)
  refine (((poolMoves_stepSyn hq hk hd hg).trans (poolMoves_stepClose _ l g)).trans
    (poolMoves_stepPayload (by rw [a.params]; exact hq) hk hd)).trans ?_
  exact poolMoves_modRecord _ l g.key fun r => .of_same rfl rfl rfl rfl rfl rfl rfl

theorem poolMoves_chargeRecord {s : State} {l : LaneId} {key : FlowKey} {d : ClassDecision}
    (hq : quota l = (s.lane l).params.quota) (hk : K key) (hd : W d.weight) :
    PoolMoves quota K W s.pool (s.chargeRecord l key d).pool := by
  unfold State.chargeRecord
  refine .trans ?_ (poolMoves_modRecord _ l key fun r => changed_charge r d.cost)
  split
  · rename_i fresh
    exact poolMoves_createRecord hq hk hd (fun _ e => nomatch e) (Option.isNone_iff_eq_none.mp fresh)
  · exact .refl _

theorem poolMoves_ageLane (s : State) (l : LaneId) : PoolMoves quota K W s.pool (s.ageLane l).pool := by
  refine .changed s.pool _ fun r r' h => ?_
  split at h
  · exact (changed_age r _).trans (changed_limits h)
  · exact Option.some.inj h ▸ .refl r

theorem poolMoves_limitSlot (s : State) (slot : Nat) : PoolMoves quota K W s.pool (s.limitSlot slot).pool := by
  refine .changed s.pool _ fun r r' h => ?_
  split at h
  · exact changed_limits h
  · exact Option.some.inj h ▸ .refl r

theorem poolMoves_recompute (s : State) (l : LaneId) : PoolMoves quota K W s.pool (s.recompute l).pool := by
  simp only [State.recompute, State.pool_latchOverload, State.modLane_pool]
  refine .map s.pool fun r => ?_
  split
  · exact .of_same rfl rfl rfl rfl rfl rfl rfl
  · exact .refl r

theorem poolMoves_afterActiveSet (s : State) (l : LaneId) (b : State) :
    PoolMoves quota K W s.pool (s.afterActiveSet l b).pool := by
  unfold State.afterActiveSet
  split
  · exact poolMoves_recompute s l
  · exact .refl _

theorem poolMoves_charge {s : State} {l : LaneId} {key : FlowKey} {d : ClassDecision}
    (hq : quota l = (s.lane l).params.quota) (hk : K key) (hd : W d.weight) :
    PoolMoves quota K W s.pool (s.charge l key d).pool :=
  (poolMoves_chargeRecord hq hk hd).trans (poolMoves_afterActiveSet _ l s)

theorem poolMoves_rewrite (s : State) (l : LaneId) (f : Frame) : PoolMoves quota K W s.pool (s.rewrite l f).2.pool := by
  have edge : ∀ (key : FlowKey) (u : SeqNum), PoolMoves quota K W s.pool (s.setEdge l key u).pool :=
    fun key u => poolMoves_modRecord s l key fun r => .of_same rfl rfl rfl rfl rfl rfl rfl
  unfold State.rewrite
  split
  · exact .refl _
  · split
    · exact .refl _
    · exact .refl _
    · exact edge _ _
    · exact edge _ _

end

end Sys2Proof.Machine

/-! SUPPORT. What an event leaves of a lane's frames and of the whole part, said once for each shared operation: no frame
of a lane is lost or made, no held frame appears from nowhere, and an output does not fall idle. -/

namespace Sys2Proof.Machine

/-! ### One lane -/

/-- The frames of a lane that have not left: being sent, answering, ready and held. -/
def LaneState.frameCount (x : LaneState) : Nat :=
  (x.output.toList ++ x.response.toList ++ x.ready).length + x.queue.length

/-- An IDLE output has nothing ready and no response waiting (R16, R17). -/
def LaneState.IdleIsEmpty (x : LaneState) : Prop := x.output = none → x.ready = [] ∧ x.response = none

/-- A held frame whose connection and whose decision's weight are among those that an event may use. -/
def QueueEntry.Supplied (K : FlowKey → Prop) (W : Nat → Prop) (e : QueueEntry) : Prop :=
  K e.key ∧ ∀ d : ClassDecision, e.kind = .gated d → W d.weight

/-- What every event but the end of a frame and a hand-over does to a lane's frames: `n` are added, the response stands,
a held frame is one that was held or that the event supplies, and a busy output stays busy. -/
structure LaneState.Moves (K : FlowKey → Prop) (W : Nat → Prop) (n : Nat) (x y : LaneState) : Prop where
  response : y.response = x.response
  count : y.frameCount = x.frameCount + n
  entries : (∀ e ∈ x.queue, e.Supplied K W) → ∀ e ∈ y.queue, e.Supplied K W
  idle : x.IdleIsEmpty → y.IdleIsEmpty
  ready : x.IdleIsEmpty → x.ready ≠ [] → y.ready ≠ []

section

variable {K : FlowKey → Prop} {W : Nat → Prop}

theorem LaneState.Moves.refl (x : LaneState) : x.Moves K W 0 x := ⟨rfl, rfl, id, id, fun _ => id⟩

theorem LaneState.Moves.trans {m n : Nat} {x y z : LaneState} (h : x.Moves K W m y) (h' : y.Moves K W n z) :
    x.Moves K W (m + n) z where
  response := h'.response.trans h.response
  count := by rw [h'.count, h.count, Nat.add_assoc]
  entries := h'.entries ∘ h.entries
  idle := h'.idle ∘ h.idle
  ready hi hr := h'.ready (h.idle hi) (h.ready hi hr)

/-- A change that leaves the arbiter and the queue as they stand. -/
theorem LaneState.Moves.of_same {x y : LaneState} (output : y.output = x.output) (ready : y.ready = x.ready)
    (response : y.response = x.response) (queue : y.queue = x.queue) : x.Moves K W 0 y where
  response := response
  count := by simp only [LaneState.frameCount, output, ready, response, queue, Nat.add_zero]
  entries := by rw [queue]; exact id
  idle := by simp only [LaneState.IdleIsEmpty, output, ready, response]; exact id
  ready _ := by rw [ready]; exact id

theorem LaneState.Accounted.moves {x y : LaneState} (h : x.Accounted y) : x.Moves K W 0 y :=
  .of_same h.output h.ready h.response h.queue

/-- A frame joins the ready list and starts at once on an IDLE output with the response slot empty (R16). -/
def LaneState.addReady (x : LaneState) (f : Frame) : LaneState := LaneState.startReady { x with ready := x.ready ++ [f] }

theorem lane_makeReady_same (s : State) (l : LaneId) (f : Frame) : (s.makeReady l f).lane l = (s.lane l).addReady f := by
  simp [State.makeReady, LaneState.addReady]

/-- On an output in use a frame made ready waits. -/
theorem addReady_of_output {x : LaneState} {g : Frame} (h : x.output = some g) (f : Frame) :
    x.addReady f = { x with ready := x.ready ++ [f] } := by
  simp [LaneState.addReady, LaneState.startReady, h]

theorem addReady_idle (x : LaneState) (f : Frame) (h : x.IdleIsEmpty) : (x.addReady f).IdleIsEmpty := by
  obtain ho | ⟨g, ho⟩ := Option.eq_none_or_eq_some x.output
  · obtain ⟨hr, hs⟩ := h ho
    intro c
    simp [LaneState.addReady, LaneState.startReady, ho, hr, hs] at c
  · rw [addReady_of_output ho]
    exact fun c => nomatch ho.symm.trans c

theorem addReady_ready (x : LaneState) (f : Frame) (h : x.IdleIsEmpty) (hr : x.ready ≠ []) :
    (x.addReady f).ready ≠ [] := by
  obtain ho | ⟨g, ho⟩ := Option.eq_none_or_eq_some x.output
  · exact absurd (h ho).1 hr
  · rw [addReady_of_output ho]
    simp

/-- A frame made ready is one frame more. -/
theorem moves_addReady (x : LaneState) (f : Frame) : x.Moves K W 1 (x.addReady f) where
  response := startReady_response _
  count := by
    simp only [LaneState.frameCount, LaneState.addReady, startReady_frames, startReady_queue, List.length_append,
      List.length_singleton]
    omega
  entries := by rw [LaneState.addReady, startReady_queue]; exact id
  idle := addReady_idle x f
  ready := addReady_ready x f

/-- A held frame that leaves the head of the queue and becomes ready is no frame more and none less (R106). -/
theorem moves_release {x y : LaneState} {e : QueueEntry} {rest : List QueueEntry} (hq : x.queue = e :: rest)
    (hy : LaneState.Accounted { x with queue := rest } y) (f : Frame) : x.Moves K W 0 (y.addReady f) where
  response := (startReady_response _).trans hy.response
  count := by
    have c := (moves_addReady (K := K) (W := W) y f).count
    simp only [LaneState.frameCount, hy.output, hy.response, hy.ready, hy.queue] at c ⊢
    rw [c, hq, List.length_cons]
    rfl
  entries h e' he' := by
    rw [LaneState.addReady, startReady_queue] at he'
    have : e' ∈ rest := by simpa [hy.queue] using he'
    exact h e' (by rw [hq]; exact List.mem_cons_of_mem _ this)
  idle h := addReady_idle y f (by simpa only [LaneState.IdleIsEmpty, hy.output, hy.ready, hy.response] using h)
  ready h hr := addReady_ready y f (by simpa only [LaneState.IdleIsEmpty, hy.output, hy.ready, hy.response] using h)
    (by rw [hy.ready]; exact hr)

/-- An append at the tail (R98). -/
theorem moves_append (x : LaneState) {e : QueueEntry} (he : e.Supplied K W) :
    x.Moves K W 1 { x with queue := x.queue ++ [e] } where
  response := rfl
  count := by simp only [LaneState.frameCount, List.length_append, List.length_singleton, Nat.add_assoc]
  entries h e' he' := by
    obtain h' | h' := List.mem_append.mp he'
    · exact h e' h'
    · exact List.mem_singleton.mp h' ▸ he
  idle := id
  ready _ := id

/-- Held ticks advance (R111). -/
theorem moves_tick (x : LaneState) : x.Moves K W 0 { x with queue := x.queue.map QueueEntry.tick } where
  response := rfl
  count := by simp only [LaneState.frameCount, List.length_map, Nat.add_zero]
  entries h e' he' := by
    obtain ⟨e, he, rfl⟩ := List.mem_map.mp he'
    exact h e he
  idle := id
  ready _ := id

/-! ### The whole part -/

/-- What an event that is no hand-over and ends no frame leaves: on each lane `n` frames are added, and the straps, the
wires and the frames in the control engine stand. -/
structure State.Shifts (K : FlowKey → Prop) (W : Nat → Prop) (n : LaneId → Nat) (s t : State) : Prop where
  lanes : ∀ l : LaneId, (s.lane l).Moves K W (n l) (t.lane l)
  straps : t.straps = s.straps
  stationSent : t.stationSent = s.stationSent
  fabricSent : t.fabricSent = s.fabricSent
  fifo : t.control.fifo = s.control.fifo
  engine : t.control.engine = s.control.engine

/-- Every held frame is one that an event may use. -/
def State.Entries (K : FlowKey → Prop) (W : Nat → Prop) (s : State) : Prop :=
  ∀ l : LaneId, ∀ e ∈ (s.lane l).queue, e.Supplied K W

/-- An event that moreover keeps parameters and match windows, and changes the pool by the operations on it alone. -/
structure State.Moves (K : FlowKey → Prop) (W : Nat → Prop) (n : LaneId → Nat) (s t : State) : Prop extends
    s.Shifts K W n t where
  params : ∀ l : LaneId, (t.lane l).params = (s.lane l).params
  windows : t.windows = s.windows
  pool : PoolMoves (fun l => (s.lane l).params.quota) K W s.pool t.pool

/-- An event that moreover keeps every lane's mode and target and adds no frame. -/
structure State.Stays (K : FlowKey → Prop) (W : Nat → Prop) (s t : State) : Prop extends s.Moves K W 0 t where
  modes : ∀ l : LaneId, (t.lane l).mode = (s.lane l).mode ∧ (t.lane l).target = (s.lane l).target

theorem State.Shifts.refl (s : State) : s.Shifts K W 0 s := ⟨fun _ => .refl _, rfl, rfl, rfl, rfl, rfl⟩

theorem State.Shifts.trans {m n : LaneId → Nat} {s t u : State} (h : s.Shifts K W m t) (h' : t.Shifts K W n u) :
    s.Shifts K W (m + n) u where
  lanes l := (h.lanes l).trans (h'.lanes l)
  straps := h'.straps.trans h.straps
  stationSent := h'.stationSent.trans h.stationSent
  fabricSent := h'.fabricSent.trans h.fabricSent
  fifo := h'.fifo.trans h.fifo
  engine := h'.engine.trans h.engine

theorem State.Shifts.entries {n : LaneId → Nat} {s t : State} (h : s.Shifts K W n t) (hs : s.Entries K W) :
    t.Entries K W := fun l => (h.lanes l).entries (hs l)

theorem State.Moves.trans_add {m n : LaneId → Nat} {s t u : State} (h : s.Moves K W m t) (h' : t.Moves K W n u) :
    s.Moves K W (m + n) u where
  toShifts := h.toShifts.trans h'.toShifts
  params l := (h'.params l).trans (h.params l)
  windows := h'.windows.trans h.windows
  pool := h.pool.trans (by simpa only [h.params] using h'.pool)

theorem State.Moves.trans {n : LaneId → Nat} {s t u : State} (h : s.Moves K W 0 t) (h' : t.Moves K W n u) :
    s.Moves K W n u := zero_add n ▸ h.trans_add h'

theorem State.Moves.trans_stays {n : LaneId → Nat} {s t u : State} (h : s.Moves K W n t) (h' : t.Stays K W u) :
    s.Moves K W n u := add_zero n ▸ h.trans_add h'.toMoves

theorem State.Stays.refl (s : State) : s.Stays K W s :=
  { toMoves := { toShifts := .refl s, params := fun _ => rfl, windows := rfl, pool := .refl _ }
    modes := fun _ => ⟨rfl, rfl⟩ }

theorem State.Stays.trans {s t u : State} (h : s.Stays K W t) (h' : t.Stays K W u) : s.Stays K W u where
  toMoves := h.toMoves.trans h'.toMoves
  modes l := ⟨(h'.modes l).1.trans (h.modes l).1, (h'.modes l).2.trans (h.modes l).2⟩

/-- A change outside the lanes, the pool, the windows, the straps, the wires and the control engine. -/
theorem State.Stays.of_eq {s t : State} (lanes : t.lanes = s.lanes) (pool : t.pool = s.pool)
    (windows : t.windows = s.windows) (straps : t.straps = s.straps) (stationSent : t.stationSent = s.stationSent)
    (fabricSent : t.fabricSent = s.fabricSent) (fifo : t.control.fifo = s.control.fifo)
    (engine : t.control.engine = s.control.engine) : s.Stays K W t where
  lanes l := State.lane_congr lanes l ▸ .refl _
  straps := straps
  stationSent := stationSent
  fabricSent := fabricSent
  fifo := fifo
  engine := engine
  params l := by rw [State.lane_congr lanes l]
  windows := windows
  pool := pool ▸ .refl _
  modes l := by rw [State.lane_congr lanes l]; exact ⟨rfl, rfl⟩

/-- The same of an event of one lane, from what it does to that lane and to the pool. -/
theorem State.LaneEvent.moves {l : LaneId} {n : Nat} {s t : State} (h : s.LaneEvent l t)
    (lane : (s.lane l).Moves K W n (t.lane l)) (params : (t.lane l).params = (s.lane l).params)
    (pool : PoolMoves (fun l => (s.lane l).params.quota) K W s.pool t.pool) : s.Moves K W (Pi.single l n) t where
  lanes l' := by
    by_cases e : l' = l
    · subst e; rw [Pi.single_eq_same]; exact lane
    · rw [Pi.single_eq_of_ne e, h.lanes l' e]; exact .refl _
  straps := (congrArg State.straps h.rest :)
  stationSent := (congrArg State.stationSent h.rest :)
  fabricSent := (congrArg State.fabricSent h.rest :)
  fifo := (congrArg (·.control.fifo) h.rest :)
  engine := (congrArg (·.control.engine) h.rest :)
  params l' := by
    by_cases e : l' = l
    · exact e ▸ params
    · rw [h.lanes l' e]
  windows := (congrArg State.windows h.rest :)
  pool := pool

theorem State.LaneEvent.stays {l : LaneId} {s t : State} (h : s.LaneEvent l t)
    (lane : (s.lane l).Moves K W 0 (t.lane l)) (params : (t.lane l).params = (s.lane l).params)
    (modes : (t.lane l).mode = (s.lane l).mode ∧ (t.lane l).target = (s.lane l).target)
    (pool : PoolMoves (fun l => (s.lane l).params.quota) K W s.pool t.pool) : s.Stays K W t where
  toMoves := Pi.single_zero (M := fun _ : LaneId => Nat) l ▸ h.moves lane params pool
  modes l' := by
    by_cases e : l' = l
    · exact e ▸ modes
    · rw [h.lanes l' e]; exact ⟨rfl, rfl⟩

theorem State.LaneEvent.stays_of_accounted {l : LaneId} {s t : State} (h : s.LaneEvent l t)
    (a : (s.lane l).Accounted (t.lane l)) (pool : PoolMoves (fun l => (s.lane l).params.quota) K W s.pool t.pool) :
    s.Stays K W t := h.stays a.moves a.params ⟨a.mode, a.target⟩ pool

/-- A change of the pool alone. -/
theorem stays_pool (s : State) {p : List FlowRecord} (h : PoolMoves (fun l => (s.lane l).params.quota) K W s.pool p) :
    s.Stays K W { s with pool := p } where
  lanes _ := .refl _
  straps := rfl
  stationSent := rfl
  fabricSent := rfl
  fifo := rfl
  engine := rfl
  params _ := rfl
  windows := rfl
  pool := h
  modes _ := ⟨rfl, rfl⟩

/-! ### The flow table and the grant engine -/

theorem stays_countLane (s : State) (l : LaneId) (c : LaneCounter) : s.Stays K W (s.countLane l c) :=
  (laneEvent_countLane s l c).stays_of_accounted (accounted_countLane s l c) (.refl _)

theorem stays_latchEvent (s : State) (e : Event) : s.Stays K W (s.latchEvent e) :=
  .of_eq rfl rfl rfl rfl rfl rfl rfl rfl

theorem stays_reportSegment {s : State} {l : LaneId} {g : Segment} (hk : K g.key) (hd : W (s.lookup l g).weight)
    (hg : g.shiftLegal) : s.Stays K W (s.reportSegment l g) :=
  (laneEvent_reportSegment s l g).stays_of_accounted (accounted_reportSegment s l g)
    (poolMoves_reportSegment rfl hk hd hg)

theorem stays_recompute (s : State) (l : LaneId) : s.Stays K W (s.recompute l) :=
  (laneEvent_recompute s l).stays_of_accounted (accounted_recompute s l) (poolMoves_recompute s l)

theorem stays_afterActiveSet (s : State) (l : LaneId) (b : State) : s.Stays K W (s.afterActiveSet l b) :=
  (laneEvent_afterActiveSet s l b).stays_of_accounted (accounted_afterActiveSet s l b) (poolMoves_afterActiveSet s l b)

/-! ### The gate -/

theorem stays_charge {s : State} {l : LaneId} {key : FlowKey} {d : ClassDecision} (hk : K key) (hd : W d.weight) :
    s.Stays K W (s.charge l key d) :=
  (laneEvent_charge s l key d).stays_of_accounted (accounted_charge s l key d) (poolMoves_charge rfl hk hd)

theorem poolMoves_account {quota : LaneId → Nat} {s : State} {l : LaneId} {e : QueueEntry}
    (hq : quota l = (s.lane l).params.quota) (he : e.Supplied K W) :
    PoolMoves quota K W s.pool (s.account l e).pool := by
  unfold State.account
  split
  · rename_i d hd
    exact poolMoves_charge hq he.1 (he.2 d hd)
  · exact .refl _

theorem stays_account {s : State} {l : LaneId} {e : QueueEntry} (he : e.Supplied K W) : s.Stays K W (s.account l e) :=
  (laneEvent_account s l e).stays_of_accounted (accounted_account s l e) (poolMoves_account rfl he)

/-- A frame that passes out goes through the rewriter or not, and becomes ready. -/
theorem passOut_lane (s : State) (l : LaneId) (f : Frame) : ∃ (f' : Frame) (y : LaneState),
    (s.lane l).Accounted y ∧ (s.passOut l f).lane l = y.addReady f' := by
  unfold State.passOut
  split
  · exact ⟨_, _, accounted_rewrite s l f, lane_makeReady_same _ l _⟩
  · exact ⟨_, _, .refl _, lane_makeReady_same s l f⟩

theorem addReady_stands (x : LaneState) (f : Frame) : (x.addReady f).params = x.params ∧ (x.addReady f).mode = x.mode ∧
    (x.addReady f).target = x.target ∧ (x.addReady f).queue = x.queue :=
  ⟨startReady_params _, startReady_mode _, startReady_target _, startReady_queue _⟩

theorem passOut_pool (s : State) (l : LaneId) (f : Frame) {quota : LaneId → Nat} :
    PoolMoves quota K W s.pool (s.passOut l f).pool := by
  unfold State.passOut
  split
  · exact poolMoves_rewrite s l f
  · exact .refl _

/-- What passing a frame out does to the part: one frame more on its lane. -/
theorem moves_passOut (s : State) (l : LaneId) (f : Frame) : s.Moves K W (Pi.single l 1) (s.passOut l f) := by
  obtain ⟨f', y, hy, e⟩ := passOut_lane s l f
  have stand := addReady_stands y f'
  refine (laneEvent_passOut s l f).moves ?_ (by rw [e, stand.1, hy.params]) (passOut_pool s l f)
  rw [e, ← Nat.zero_add 1]
  exact hy.moves.trans (moves_addReady y f')

theorem passOut_modes (s : State) (l : LaneId) (f : Frame) :
    ((s.passOut l f).lane l).mode = (s.lane l).mode ∧ ((s.passOut l f).lane l).target = (s.lane l).target := by
  obtain ⟨f', y, hy, e⟩ := passOut_lane s l f
  obtain ⟨-, hm, ht, -⟩ := addReady_stands y f'
  rw [e]
  exact ⟨hm.trans hy.mode, ht.trans hy.target⟩

/-- A frame made ready is one frame more on its lane. -/
theorem moves_makeReady (s : State) (l : LaneId) (f : Frame) : s.Moves K W (Pi.single l 1) (s.makeReady l f) := by
  refine (laneEvent_makeReady s l f).moves ?_ ?_ (.refl _)
  · rw [lane_makeReady_same]; exact moves_addReady _ f
  · rw [lane_makeReady_same]; exact (addReady_stands _ f).1

/-- The release of a head (R106): nothing of the part changes but by the charge, the rewriter and the arbiter. -/
theorem stays_releaseHead {s : State} {l : LaneId} (hs : s.Entries K W) : s.Stays K W (s.releaseHead l) := by
  have ev := laneEvent_releaseHead s l
  unfold State.releaseHead at ev ⊢
  split
  · exact .refl s
  · rename_i e rest hq
    rw [hq] at ev
    have he : e.Supplied K W := hs l e (by rw [hq]; exact List.mem_cons_self ..)
    have a := accounted_account (s.modLane l fun x => { x with queue := rest }) l e
    rw [State.lane_modLane_same] at a
    obtain ⟨f', y, hy, eq⟩ := passOut_lane ((s.modLane l fun x => { x with queue := rest }).account l e) l e.frame
    have ay := a.trans hy
    obtain ⟨hp, hm, ht, -⟩ := addReady_stands y f'
    refine ev.stays ?_ ?_ ?_ ?_
    · rw [eq]; exact moves_release hq ay f'
    · rw [eq]; exact hp.trans ay.params
    · rw [eq]; exact ⟨hm.trans ay.mode, ht.trans ay.target⟩
    · exact (poolMoves_account (s := s.modLane l fun x => { x with queue := rest }) (by simp) he).trans
        (passOut_pool _ l e.frame)

theorem stays_releaseFirst (n : Nat) (l : LaneId) : ∀ {s : State}, s.Entries K W →
    s.Stays K W (State.releaseFirst n l s) := by
  induction n with
  | zero => exact fun _ => .refl _
  | succ n ih =>
    intro s hs
    have h := stays_releaseHead (l := l) hs
    exact h.trans (ih (h.entries hs))

theorem stays_releaseAll {s : State} {l : LaneId} (hs : s.Entries K W) : s.Stays K W (s.releaseAll l) :=
  stays_releaseFirst _ l hs

theorem stays_reevaluateLoop (force : Bool) (n : Nat) (l : LaneId) : ∀ {s : State}, s.Entries K W →
    s.Stays K W (State.reevaluateLoop force n l s) := by
  induction n with
  | zero => exact fun _ => .refl _
  | succ n ih =>
    intro s hs
    have h := stays_releaseHead (l := l) hs
    have hf := h.trans (stays_countLane _ l .forced)
    unfold State.reevaluateLoop
    split
    · exact .refl s
    · split
      · exact h.trans (ih (h.entries hs))
      · split
        · exact hf.trans (ih (hf.entries hs))
        · split
          · exact h.trans (ih (h.entries hs))
          · exact .refl s

theorem stays_reevaluate {s : State} {l : LaneId} (hs : s.Entries K W) : s.Stays K W (s.reevaluate l) := by
  unfold State.reevaluate
  split
  · exact stays_reevaluateLoop _ _ l hs
  · exact .refl s

theorem stays_gateTickLane {s : State} {l : LaneId} (hs : s.Entries K W) : s.Stays K W (State.gateTickLane l s) := by
  have tick : s.Stays K W (s.modLane l fun x => { x with queue := x.queue.map QueueEntry.tick }) := by
    refine (laneEvent_modLane s l _).stays ?_ ?_ ?_ (.refl _) <;> rw [State.lane_modLane_same]
    · exact moves_tick _
    · exact ⟨rfl, rfl⟩
  unfold State.gateTickLane
  split
  · dsimp only
    split
    · exact tick.trans (stays_reevaluateLoop _ _ l (tick.entries hs))
    · exact tick
  · exact .refl s

theorem stays_handOn {s : State} {l : LaneId} (b : State) (hs : s.Entries K W) : s.Stays K W (s.handOn l b) := by
  have h := stays_afterActiveSet (K := K) (W := W) s l b
  unfold State.handOn
  dsimp only
  split
  · exact h.trans (stays_reevaluate (h.entries hs))
  · exact h

theorem stays_recomputeHandOn {s : State} {l : LaneId} (hs : s.Entries K W) : s.Stays K W (s.recomputeHandOn l) := by
  have h := stays_recompute (K := K) (W := W) s l
  unfold State.recomputeHandOn
  dsimp only
  split
  · exact h.trans (stays_reevaluate (h.entries hs))
  · exact h

theorem stays_flowTickLane {s : State} {l : LaneId} (hs : s.Entries K W) : s.Stays K W (State.flowTickLane l s) := by
  have h := stays_pool (K := K) (W := W) s (poolMoves_ageLane s l)
  unfold State.flowTickLane
  split
  · exact h.trans (stays_handOn s (h.entries hs))
  · exact .refl s

/-- Every lane's turn keeps what one turn keeps. -/
theorem stays_forEachLane {f : LaneId → State → State}
    (h : ∀ (l : LaneId) (s : State), s.Entries K W → s.Stays K W (f l s)) {s : State} (hs : s.Entries K W) :
    s.Stays K W (forEachLane f s) := by
  unfold forEachLane
  generalize allLanes = ls
  induction ls generalizing s with
  | nil => exact .refl s
  | cons l rest ih => exact (h l s hs).trans (ih ((h l s hs).entries hs))

theorem moves_forEachLane {f : LaneId → State → State}
    (h : ∀ (l : LaneId) (s : State), s.Entries K W → s.Moves K W 0 (f l s)) {s : State} (hs : s.Entries K W) :
    s.Moves K W 0 (forEachLane f s) := by
  unfold forEachLane
  generalize allLanes = ls
  induction ls generalizing s with
  | nil => exact (State.Stays.refl s).toMoves
  | cons l rest ih => exact (h l s hs).trans (ih ((h l s hs).entries hs))

/-- An update of one lane that leaves its arbiter, its queue and its parameters. -/
theorem moves_modLane (s : State) (l : LaneId) {f : LaneState → LaneState}
    (h : ∀ x : LaneState, (f x).output = x.output ∧ (f x).ready = x.ready ∧ (f x).response = x.response ∧
      (f x).queue = x.queue ∧ (f x).params = x.params) : s.Moves K W 0 (s.modLane l f) := by
  obtain ⟨ho, hr, hs, hq, hp⟩ := h (s.lane l)
  rw [← Pi.single_zero (M := fun _ : LaneId => Nat) l]
  refine (laneEvent_modLane s l f).moves ?_ ?_ (.refl _) <;> rw [State.lane_modLane_same]
  · exact .of_same ho hr hs hq
  · exact hp

/-- The same where mode and target stand too. -/
theorem stays_modLane (s : State) (l : LaneId) {f : LaneState → LaneState}
    (h : ∀ x : LaneState, (f x).output = x.output ∧ (f x).ready = x.ready ∧ (f x).response = x.response ∧
      (f x).queue = x.queue ∧ (f x).params = x.params) (hm : ∀ x : LaneState, (f x).mode = x.mode ∧ (f x).target = x.target) :
    s.Stays K W (s.modLane l f) where
  toMoves := moves_modLane s l h
  modes l' := by
    rw [State.lane_modLane]
    split
    · rename_i e; rw [e]; exact hm _
    · exact ⟨rfl, rfl⟩

theorem moves_finishDrain (s : State) (l : LaneId) : s.Moves K W 0 (s.finishDrain l) := by
  unfold State.finishDrain
  split
  · exact moves_modLane s l fun _ => ⟨rfl, rfl, rfl, rfl, rfl⟩
  · exact (State.Stays.refl s).toMoves

theorem moves_drainLoop (n : Nat) (l : LaneId) : ∀ {s : State}, s.Entries K W →
    s.Moves K W 0 (State.drainLoop n l s) := by
  induction n with
  | zero => exact fun _ => (State.Stays.refl _).toMoves
  | succ n ih =>
    intro s hs
    have h := (stays_releaseHead (l := l) hs).toMoves.trans (moves_finishDrain (s.releaseHead l) l)
    unfold State.drainLoop
    split
    · exact h.trans (ih (h.entries hs))
    · exact (State.Stays.refl s).toMoves

theorem moves_drain {s : State} {l : LaneId} (hs : s.Entries K W) : s.Moves K W 0 (s.drain l) := moves_drainLoop _ l hs

/-- An arriving frame the gate is to hold is one frame more, held or passed out. -/
theorem moves_hold {s : State} {l : LaneId} {kind : EntryKind} {key : FlowKey} (f : Frame) (hs : s.Entries K W)
    (he : QueueEntry.Supplied K W ⟨kind, key, f, 0⟩) : s.Moves K W (Pi.single l 1) (s.hold l kind key f) := by
  unfold State.hold
  split
  · refine State.Moves.trans_stays ?_ (stays_countLane _ l _)
    refine (laneEvent_modLane s l _).moves ?_ ?_ (.refl _) <;> rw [State.lane_modLane_same]
    exact moves_append _ he
  · have h := stays_releaseAll (l := l) hs
    have h1 := h.trans (stays_account (l := l) he)
    unfold State.overflowFlush
    rw [← add_zero (Pi.single l 1)]
    exact (((h1.toMoves.trans (moves_passOut _ l f)).trans_stays (stays_countLane _ l .flushes)).trans_stays
      (stays_latchEvent _ _)).trans_add (moves_finishDrain _ l)

/-- The gate's stage of an outbound segment: one frame more, held or passed out (R14). -/
theorem moves_gateArrival {s : State} {l : LaneId} {g : Segment} (f : Frame) (start : Bool) {d : ClassDecision}
    (hs : s.Entries K W) (hk : K g.key) (hd : W d.weight) :
    s.Moves K W (Pi.single l 1) (s.gateArrival l g f start d) := by
  have gated : QueueEntry.Supplied K W ⟨.gated d, g.key, f, 0⟩ := ⟨hk, fun _ e => EntryKind.gated.inj e ▸ hd⟩
  have follower : QueueEntry.Supplied K W ⟨.follower, g.key, f, 0⟩ := ⟨hk, fun _ e => nomatch e⟩
  unfold State.gateArrival
  split
  · exact moves_hold f hs follower
  · split
    · split
      · exact moves_hold f hs gated
      · exact (stays_charge hk hd).toMoves.trans (moves_passOut _ l f)
    · exact moves_passOut s l f

/-- The frames of some entries, made ready in their order. -/
theorem moves_foldl_makeReady (l : LaneId) (q : List QueueEntry) : ∀ s : State,
    s.Moves K W (Pi.single l q.length) (q.foldl (fun s e => s.makeReady l e.frame) s) := by
  induction q with
  | nil => intro s; rw [List.length_nil, Pi.single_zero]; exact (State.Stays.refl s).toMoves
  | cons e rest ih =>
    intro s
    rw [List.length_cons, Nat.add_comm, Pi.single_add]
    exact (moves_makeReady s l e.frame).trans_add (ih _)

theorem laneEvent_foldl_makeReady (l : LaneId) (q : List QueueEntry) : ∀ s : State,
    s.LaneEvent l (q.foldl (fun s e => s.makeReady l e.frame) s) := by
  induction q with
  | nil => exact fun s => .refl l s
  | cons e rest ih => exact fun s => (laneEvent_makeReady s l e.frame).trans (ih _)

theorem pool_foldl_makeReady (l : LaneId) (q : List QueueEntry) : ∀ s : State,
    (q.foldl (fun s e => s.makeReady l e.frame) s).pool = s.pool := by
  induction q with
  | nil => exact fun _ => rfl
  | cons e rest ih => exact fun s => (ih (s.makeReady l e.frame)).trans rfl

/-- Keepalive expiry makes every held frame of a lane ready (R119). -/
theorem moves_failsafeRelease (s : State) (l : LaneId) : s.Moves K W 0 (s.failsafeRelease l) := by
  have g := moves_foldl_makeReady (K := K) (W := W) l (s.lane l).queue (s.modLane l fun x => { x with queue := [] })
  have own := g.lanes l
  have par := g.params l
  rw [State.lane_modLane_same, Pi.single_eq_same] at own
  rw [State.lane_modLane_same] at par
  rw [← Pi.single_zero (M := fun _ : LaneId => Nat) l]
  refine ((laneEvent_modLane s l fun x => { x with queue := [] }).trans (laneEvent_foldl_makeReady l _ _)).moves
    ⟨own.response, own.count.trans ?_, fun _ => own.entries (fun e he => nomatch he), own.idle, own.ready⟩ par ?_
  · simp [LaneState.frameCount]
  · rw [pool_foldl_makeReady]
    exact .refl _

end

end Sys2Proof.Machine

/-! SUPPORT. What the probe, the mode controller, the clock and the control engine's commands leave of the whole part,
and what one command can be, said once. -/

namespace Sys2Proof.Machine

section

variable {K : FlowKey → Prop} {W : Nat → Prop}

/-! ### The probe -/

theorem stays_probe (s : State) (p : Probe) : s.Stays K W { s with probe := p } :=
  .of_eq rfl rfl rfl rfl rfl rfl rfl rfl

theorem grantProbe_eq (s : State) : ∃ p : Probe, s.grantProbe = { s with probe := p } := by
  unfold State.grantProbe
  split
  · split
    · exact ⟨_, rfl⟩
    · exact ⟨_, rfl⟩
  · exact ⟨s.probe, rfl⟩

theorem stays_grantProbe (s : State) : s.Stays K W s.grantProbe := by
  obtain ⟨p, e⟩ := grantProbe_eq s
  exact e ▸ stays_probe s p

theorem stays_freeProbe (s : State) : s.Stays K W s.freeProbe := (stays_probe s _).trans (stays_grantProbe _)

theorem stays_requestProbe (s : State) (l : LaneId) (k : ProbeKind) : s.Stays K W (s.requestProbe l k) := by
  unfold State.requestProbe
  split
  · exact stays_probe s _
  · exact (stays_probe s _).trans (stays_grantProbe _)

theorem stays_leaveProbe (s : State) (l : LaneId) : s.Stays K W (s.leaveProbe l) := by
  unfold State.leaveProbe
  dsimp only
  split
  · split
    · exact (stays_probe s _).trans (stays_freeProbe _)
    · exact stays_probe s _
  · exact stays_probe s _

theorem stays_abandonProbe (s : State) : s.Stays K W s.abandonProbe := by
  unfold State.abandonProbe
  split
  · exact stays_freeProbe s
  · exact .refl s

theorem stays_probeCount (s : State) (l : LaneId) (len : Nat) : s.Stays K W (s.probeCount l len) := by
  unfold State.probeCount
  split
  · split
    · exact stays_probe s _
    · exact .refl s
  · exact .refl s
  · exact .refl s

theorem stays_completeProbe {s : State} (r : ProbeRequest) (hs : s.Entries K W) :
    s.Stays K W (s.completeProbe r) := by
  unfold State.completeProbe
  dsimp only
  refine State.Stays.trans ?_ (((stays_latchEvent _ .probe).trans (stays_probe _ _)).trans (stays_grantProbe _))
  split
  · have h := stays_modLane (K := K) (W := W) s r.lane
      (f := fun x => { x with rMeas := some (measuredRate s.probe.byteCount r.kind.window (s.lane r.lane).params.rNominal) })
      (fun _ => ⟨rfl, rfl, rfl, rfl, rfl⟩) fun _ => ⟨rfl, rfl⟩
    exact h.trans (stays_recomputeHandOn (h.entries hs))
  · exact stays_countLane s r.lane _

theorem stays_windowTick {s : State} (r : ProbeRequest) (hs : s.Entries K W) : s.Stays K W (s.windowTick r) := by
  unfold State.windowTick
  dsimp only
  split
  · exact (stays_probe s _).trans (stays_completeProbe r hs)
  · exact stays_probe s _

theorem stays_engineTick {s : State} (hs : s.Entries K W) : s.Stays K W s.engineTick := by
  unfold State.engineTick
  split
  · exact .refl s
  · exact stays_probe s _
  · exact stays_windowTick _ hs

theorem stays_intervalCount (s : State) (l : LaneId) (f : LaneState → Nat) :
    s.Stays K W (s.modLane l fun x => { x with intervalCount := f x }) :=
  stays_modLane s l (fun _ => ⟨rfl, rfl, rfl, rfl, rfl⟩) fun _ => ⟨rfl, rfl⟩

theorem stays_intervalTick (l : LaneId) (s : State) : s.Stays K W (State.intervalTick l s) := by
  unfold State.intervalTick
  split
  · split
    · exact (stays_intervalCount s l fun _ => 0).trans (stays_requestProbe _ l _)
    · exact stays_intervalCount s l fun x => x.intervalCount + 1
  · exact .refl s

/-! ### Modes -/

theorem stays_removeLaneRecords (s : State) (l : LaneId) : s.Stays K W (s.removeLaneRecords l) :=
  stays_pool s (.filter s.pool _)

theorem stays_removeRecord (s : State) (l : LaneId) (key : FlowKey) : s.Stays K W (s.removeRecord l key) :=
  stays_pool s (.filter s.pool _)

theorem moves_setMode (s : State) (l : LaneId) (m : Mode) (t : DrainTarget) : s.Moves K W 0 (s.setMode l m t) :=
  moves_modLane s l fun _ => ⟨rfl, rfl, rfl, rfl, rfl⟩

theorem moves_enterMonitor (s : State) (l : LaneId) : s.Moves K W 0 (s.enterMonitor l) := by
  unfold State.enterMonitor
  refine State.Moves.trans_stays (State.Moves.trans (stays_removeLaneRecords s l).toMoves (moves_modLane _ l ?_))
    (stays_recompute _ l)
  exact fun _ => ⟨rfl, rfl, rfl, rfl, rfl⟩

theorem moves_enterActive (s : State) (l : LaneId) : s.Moves K W 0 (s.enterActive l) := by
  unfold State.enterActive
  refine State.Moves.trans_stays (moves_modLane s l ?_) (stays_requestProbe _ l _)
  exact fun _ => ⟨rfl, rfl, rfl, rfl, rfl⟩

theorem moves_enterBypass (s : State) (l : LaneId) : s.Moves K W 0 (s.enterBypass l) :=
  (moves_setMode s l _ _).trans_stays (stays_leaveProbe _ l)

theorem moves_enterDraining {s : State} (l : LaneId) (t : DrainTarget) (hs : s.Entries K W) :
    s.Moves K W 0 (s.enterDraining l t) := by
  have h := (moves_setMode (K := K) (W := W) s l .draining t).trans_stays (stays_leaveProbe _ l)
  exact h.trans (moves_drain (h.entries hs))

theorem moves_returnToActive {s : State} (l : LaneId) (hs : s.Entries K W) : s.Moves K W 0 (s.returnToActive l) := by
  have h := moves_setMode (K := K) (W := W) s l .active .none
  exact (h.trans_stays (stays_reevaluate (h.entries hs))).trans (moves_enterActive _ l)

theorem moves_changeMode {s t : State} {l : LaneId} {req : RequestedMode} (hs : s.Entries K W)
    (h : s.changeMode l req = some t) : s.Moves K W 0 t := by
  unfold State.changeMode at h
  split at h
  · exact Option.some.inj h ▸ (State.Stays.refl s).toMoves
  · exact Option.some.inj h ▸ moves_enterMonitor s l
  · cases h
  · exact Option.some.inj h ▸ moves_enterBypass s l
  · exact Option.some.inj h ▸ (State.Stays.refl s).toMoves
  · split at h
    · exact Option.some.inj h ▸ moves_enterActive s l
    · cases h
  · split at h
    · exact Option.some.inj h ▸ moves_enterBypass s l
    · exact Option.some.inj h ▸ moves_enterDraining l _ hs
  · split at h
    · exact Option.some.inj h ▸ moves_setMode s l _ _
    · exact Option.some.inj h ▸ moves_enterDraining l _ hs
  · exact Option.some.inj h ▸ (State.Stays.refl s).toMoves
  · exact Option.some.inj h ▸ moves_setMode s l _ _
  · exact Option.some.inj h ▸ moves_setMode s l _ _
  · exact Option.some.inj h ▸ moves_returnToActive l hs
  · exact Option.some.inj h ▸ moves_setMode s l _ _
  · exact Option.some.inj h ▸ moves_enterMonitor s l
  · cases h

theorem requestMode_eq {s t : State} {l : LaneId} {req : RequestedMode} (h : s.requestMode l req = some t) :
    s.changeMode l req = some t := by
  unfold State.requestMode at h
  split at h
  · cases h
  · exact h

theorem moves_releaseLane {s : State} (l : LaneId) (hs : s.Entries K W) : s.Moves K W 0 (s.releaseLane l) := by
  unfold State.releaseLane
  split
  · exact (stays_releaseAll hs).toMoves.trans (moves_finishDrain _ l)
  · exact (State.Stays.refl s).toMoves

theorem moves_expireLane (l : LaneId) (s : State) : s.Moves K W 0 (State.expireLane l s) := by
  unfold State.expireLane
  split
  · exact ((moves_failsafeRelease s l).trans (moves_setMode _ l _ _)).trans_stays (stays_leaveProbe _ l)
  · exact (State.Stays.refl s).toMoves

theorem stays_keepalive (s : State) (k : Keepalive) : s.Stays K W { s with keepalive := k } :=
  .of_eq rfl rfl rfl rfl rfl rfl rfl rfl

theorem moves_expire {s : State} (hs : s.Entries K W) : s.Moves K W 0 s.expire :=
  ((stays_keepalive s _).trans (stays_latchEvent _ _)).toMoves.trans
    (moves_forEachLane (fun l s _ => moves_expireLane l s) hs)

theorem moves_monitorTick {s : State} (hs : s.Entries K W) : s.Moves K W 0 s.monitorTick := by
  unfold State.monitorTick
  split
  · dsimp only
    split
    · exact (stays_keepalive s _).toMoves.trans (moves_expire hs)
    · exact (stays_keepalive s _).toMoves
  · exact (State.Stays.refl s).toMoves

/-! ### The epoch timer -/

theorem stays_timer (s : State) (x : Timer) : s.Stays K W { s with timer := x } :=
  .of_eq rfl rfl rfl rfl rfl rfl rfl rfl

theorem stays_forgetRates {s : State} (hs : s.Entries K W) : s.Stays K W s.forgetRates := by
  unfold State.forgetRates
  refine stays_forEachLane (fun l s _ => stays_modLane s l ?_ ?_) hs
  · exact fun _ => ⟨rfl, rfl, rfl, rfl, rfl⟩
  · exact fun _ => ⟨rfl, rfl⟩

theorem stays_rebaseLane (l : LaneId) {s : State} (hs : s.Entries K W) : s.Stays K W (State.rebaseLane l s) := by
  unfold State.rebaseLane
  split
  · exact stays_recomputeHandOn hs
  · exact .refl s

theorem stays_takeStaged {s : State} (hs : s.Entries K W) : s.Stays K W s.takeStaged := by
  unfold State.takeStaged
  split
  · exact .refl s
  · rename_i p e _
    have timer := stays_timer (K := K) (W := W) s { s.timer with prescale := p, epochDivisor := e, staged := none }
    have forgot := timer.trans (stays_forgetRates (timer.entries hs))
    have rebased := forgot.trans (stays_forEachLane (fun l _ hu => stays_rebaseLane l hu) (forgot.entries hs))
    exact rebased.trans (stays_abandonProbe _)

theorem stays_timerTick {s : State} (hs : s.Entries K W) : s.Stays K W s.timerTick := by
  unfold State.timerTick
  have timer := stays_timer (K := K) (W := W) s
    { s.timer with prescaleCount := 0, epochCount := 0, epochNumber := (s.timer.epochNumber + 1) % 65536 }
  exact timer.trans (stays_takeStaged (timer.entries hs))

theorem stays_clockCycle (s : State) : s.Stays K W s.clockCycle := by
  unfold State.clockCycle
  split
  · split
    · exact stays_timer s _
    · split
      · exact stays_timer s _
      · exact .of_eq rfl rfl rfl rfl rfl rfl rfl rfl
  · exact .refl s

/-! ### Segments -/

/-- What a TCP option list gives is at most 14 (R10). -/
theorem readOptions_le : ∀ (n : Nat) (bs : List Byte) (found : Option Nat), (∀ v ∈ found, v ≤ 14) →
    ∀ r : Option Nat, readOptions n bs found = some r → ∀ v ∈ r, v ≤ 14 := by
  intro n
  induction n with
  | zero => exact fun bs found hf r h => Option.some.inj h ▸ hf
  | succ n ih =>
    intro bs found hf r h
    cases bs with
    | nil => exact Option.some.inj h ▸ hf
    | cons kind rest =>
      unfold readOptions at h
      split at h
      · exact Option.some.inj h ▸ hf
      · split at h
        · exact ih rest found hf r h
        · split at h
          · cases h
          · split at h
            · cases h
            · split at h
              · split at h
                · refine ih _ _ (fun v hv => ?_) r h
                  cases found with
                  | some w => exact hf v hv
                  | none => exact Option.some.inj hv ▸ min_le_left 14 _
                · cases h
              · exact ih _ found hf r h

theorem scaleOption_le (bs : List Byte) : ∀ v ∈ scaleOption bs, v ≤ 14 := by
  intro v hv
  unfold scaleOption at hv
  cases h : readOptions bs.length bs none with
  | none => rw [h] at hv; cases hv
  | some r =>
    rw [h] at hv
    exact readOptions_le _ bs none (fun _ e => nomatch e) r h v hv

/-- A frame with a segment report is an IP packet with a TCP header (R7 to R9). -/
theorem segmentOf_eq_some {d : Direction} {f : Frame} {g : Segment} (h : segmentOf d f = some g) :
    ∃ (e : EtherHeader) (ip : IpPacket), etherHeader f = some e ∧ parseIp f e = some ip ∧ parseTcp d f ip = some g := by
  unfold segmentOf at h
  split at h
  · cases h
  · rename_i e he
    split at h
    · cases h
    · rename_i ip hip
      exact ⟨e, ip, he, hip, h⟩

/-- The scale option a segment reports is at most 14 (R10). -/
theorem shiftLegal_of_segmentOf {d : Direction} {f : Frame} {g : Segment} (h : segmentOf d f = some g) :
    g.shiftLegal := by
  obtain ⟨e, ip, -, -, hg⟩ := segmentOf_eq_some h
  intro sc hsc
  unfold parseTcp at hg
  dsimp only at hg
  split at hg
  · obtain rfl := Option.some.inj hg
    simp only at hsc
    split at hsc
    · exact scaleOption_le _ sc hsc
    · cases hsc
  · cases hg

/-- What an event may use: the entries held, the connections of segments and the weights of lookups. -/
structure State.Supply (K : FlowKey → Prop) (W : Nat → Prop) (s : State) : Prop where
  entries : s.Entries K W
  segments : ∀ (d : Direction) (f : Frame) (g : Segment), segmentOf d f = some g → K g.key
  lookups : ∀ (l : LaneId) (g : Segment), W (s.lookup l g).weight

theorem stays_inboundSegment {s : State} {l : LaneId} {f : Frame} {g : Segment} (hs : s.Supply K W)
    (hg : segmentOf .inbound f = some g) : s.Stays K W (s.inboundSegment l g) := by
  unfold State.inboundSegment
  split
  · have h := stays_reportSegment (hs.segments _ f g hg) (hs.lookups l g) (shiftLegal_of_segmentOf hg)
    exact (h.trans (stays_handOn s (h.entries hs.entries))).trans (stays_probeCount _ l _)
  · exact .refl s

/-- An outbound segment is one frame more on its lane (R14). -/
theorem moves_outboundSegment {s : State} {l : LaneId} {f : Frame} {g : Segment} (hs : s.Supply K W)
    (hg : segmentOf .outbound f = some g) : s.Moves K W (Pi.single l 1) (s.outboundSegment l g f) := by
  have hk := hs.segments _ f g hg
  unfold State.outboundSegment
  split
  · have h := stays_reportSegment hk (hs.lookups l g) (shiftLegal_of_segmentOf hg)
    have h' := h.trans (stays_handOn (l := l) s (h.entries hs.entries))
    exact h'.toMoves.trans (moves_gateArrival f _ (h'.entries hs.entries) hk (hs.lookups l g))
  · exact moves_makeReady s l f

/-! ### The commands -/

/-- The state a command leaves where each way its checks can end keeps a property. -/
theorem withSpace_state {P : State → Prop} {full space : Nat} {s : State} {o : CommandOutcome} (hs : P s)
    (ho : P o.state) : P (withSpace full space s o).state := by
  unfold withSpace
  split
  · exact hs
  · exact ho

theorem withLength_state {P : State → Prop} {least : Nat} {params : List Byte} {s : State} {o : CommandOutcome}
    (hs : P s) (ho : P o.state) : P (withLength least params s o).state := by
  unfold withLength
  split
  · exact hs
  · exact ho

theorem withLane_state {P : State → Prop} {params : List Byte} {s : State} {k : LaneId → CommandOutcome} (hs : P s)
    (hk : ∀ l : LaneId, laneOf (byteAt params 0) = some l → P (k l).state) : P (withLane params s k).state := by
  unfold withLane
  split
  · rename_i l hl
    exact hk l hl
  · exact hs

end

end Sys2Proof.Machine

namespace Sys2Proof

open Sys2Proof.Machine

/-- What the execution of a command gives, by its row (Table 9-3); for a step that is no command, nothing changed. -/
def Instr.outcome (c : Instr) (space : Nat) (s : State) : CommandOutcome :=
  match c with
  | .keepalive p => effectKeepalive p space s
  | .readChip p => effectReadChip p space s
  | .writeChip p => effectWriteChip p space s
  | .setTimebase p => effectSetTimebase p space s
  | .ackEvents p => effectAckEvents p space s
  | .setLaneMode p => effectSetLaneMode p space s
  | .writeLaneParams p => effectWriteLaneParams p space s
  | .readLane p => effectReadLane p space s
  | .readCounters p => effectReadCounters p space s
  | .flushFlows p => effectFlushFlows p space s
  | .releaseLane p => effectReleaseLane p space s
  | .startProbe p => effectStartProbe p space s
  | .writeClass p => effectWriteClass p space s
  | .readClass p => effectReadClass p space s
  | .readFlows p => effectReadFlows p space s
  | .evictFlow p => effectEvictFlow p space s
  | .chipReset p => effectChipReset p space s
  | _ => refuse .ok s

/-- Whether a command is CHIP-RESET, behind which a frame's commands are ABANDONED (R171). -/
def Instr.isChipReset : Instr → Bool
  | .chipReset _ => true
  | _ => false

end Sys2Proof

namespace Sys2Proof.Machine

/-- The effect of a command reads its own parameters. -/
theorem runCommand_own (s : State) (code : Byte) (params : List Byte) (last : Bool)
    (effect : List Byte → Nat → State → CommandOutcome) :
    s.runCommand code params last effect = s.runCommand code params last fun _ => effect params := by
  unfold State.runCommand
  split <;> rfl

/-- A command's step is its execution by the control engine. -/
theorem exec_of_command {c : Instr} {code : Byte} {params : List Byte} (hc : c.command = some (code, params))
    (s : State) : exec c s = .next (s.runCommand code params c.isChipReset fun _ => c.outcome) := by
  cases c <;> cases hc <;> exact congrArg Host.Outcome.next (runCommand_own ..)

/-- A command that the engine executes now. -/
theorem exec_command_done {c : Instr} {code : Byte} {params : List Byte} {space : Nat} {s : State}
    (hc : c.command = some (code, params)) (hs : s.spaceFor code params = some space) :
    exec c s = .next (s.writeItem code (c.outcome space s) c.isChipReset) := by
  rw [exec_of_command hc, State.runCommand, hs]

/-- A command that it does not execute now. -/
theorem exec_command_notNow {c : Instr} {code : Byte} {params : List Byte} {s : State}
    (hc : c.command = some (code, params)) (hs : s.spaceFor code params = none) : exec c s = .next s := by
  rw [exec_of_command hc, runCommand_notNow hs]

section

variable {K : FlowKey → Prop} {W : Nat → Prop}

/-- All that a command can do to the blocks: most leave every mode, target, parameter and match window as they stand;
SET-LANE-MODE and RELEASE-LANE change modes, WRITE-LANE-PARAMS the parameters of a lane that does not enforce, with the
recompute in MONITOR, WRITE-CLASS one match window, and CHIP-RESET every block. -/
inductive Effect (K : FlowKey → Prop) (W : Nat → Prop) (s : State) : Instr → State → Prop where
  | stays {c : Instr} {t : State} (h : s.Stays K W t) : Effect K W s c t
  | mode {p : List Byte} {t : State} (l : LaneId) (req : RequestedMode) (lane : laneOf (byteAt p 0) = some l)
      (h : s.changeMode l req = some t) : Effect K W s (.setLaneMode p) t
  | params {p : List Byte} {t u : State} (l : LaneId) (new : LaneParams) (lane : laneOf (byteAt p 0) = some l)
      (mode : (s.lane l).mode.enforcing = false)
      (stored : u = s.modLane l fun x => { x with params := new.clamped (s.recordCount l) })
      (h : t = if (s.lane l).mode = .monitor then u.recompute l else u) : Effect K W s (.writeLaneParams p) t
  | released {p : List Byte} {t : State} (l : LaneId) (lane : laneOf (byteAt p 0) = some l)
      (h : t = s.releaseLane l) : Effect K W s (.releaseLane p) t
  | window {p : List Byte} {t : State} (i : Fin 64) (w : MatchWindow) (weight : 1 ≤ w.weight ∧ w.weight ≤ 15)
      (h : t = { s with windows := s.windows.set i.val w i.isLt }) : Effect K W s (.writeClass p) t
  | reset {p : List Byte} {t : State} (atRest : s.allAtRest = true) (h : t = s.chipReset) :
      Effect K W s (.chipReset p) t

/-- A command that only reads, is refused, or changes what no lane and no record holds. -/
theorem Effect.unchanged (s : State) (c : Instr) : Effect K W s c s := .stays (.refl s)

theorem stays_latchOverload (s : State) (l : LaneId) : s.Stays K W (s.latchOverload l) := by
  unfold State.latchOverload
  split
  · exact stays_latchEvent s _
  · exact .refl s

theorem classEntryAt_weight {bs : List Byte} {off : Nat} {w : MatchWindow} (h : classEntryAt bs off = some w) :
    1 ≤ w.weight ∧ w.weight ≤ 15 := by
  unfold classEntryAt at h
  split at h
  · obtain rfl := Option.some.inj h
    simp only [clampTo]
    omega
  · cases h

theorem effect_setLaneMode (p : List Byte) (space : Nat) (s : State) :
    Effect K W s (.setLaneMode p) (effectSetLaneMode p space s).state := by
  have unchanged := Effect.unchanged (K := K) (W := W) s (.setLaneMode p)
  unfold effectSetLaneMode
  refine withLength_state unchanged (withLane_state unchanged fun l hl => ?_)
  split
  · exact unchanged
  · rename_i req _
    refine withSpace_state unchanged ?_
    split
    · rename_i h
      exact .mode l req hl (requestMode_eq h)
    · exact unchanged

theorem effect_writeLaneParams (p : List Byte) (space : Nat) (s : State) :
    Effect K W s (.writeLaneParams p) (effectWriteLaneParams p space s).state := by
  have unchanged := Effect.unchanged (K := K) (W := W) s (.writeLaneParams p)
  unfold effectWriteLaneParams
  refine withLength_state unchanged (withLane_state unchanged fun l hl => withSpace_state unchanged ?_)
  split
  · exact unchanged
  · rename_i hm
    exact .params l (paramBlockAt p 1) hl (Bool.eq_false_iff.mpr hm) rfl rfl

theorem effect_readCounters (p : List Byte) (space : Nat) (s : State) :
    Effect K W s (.readCounters p) (effectReadCounters p space s).state := by
  have unchanged := Effect.unchanged (K := K) (W := W) s (.readCounters p)
  unfold effectReadCounters
  refine withLength_state unchanged ?_
  dsimp only
  split
  · unfold readChipCounters
    refine withSpace_state unchanged ?_
    dsimp only
    split
    · exact .stays (.of_eq rfl rfl rfl rfl rfl rfl rfl rfl)
    · exact unchanged
  · refine withLane_state unchanged fun l _ => ?_
    unfold readLaneCounters
    refine withSpace_state unchanged ?_
    dsimp only
    split
    · exact .stays (stays_modLane s l (fun _ => ⟨rfl, rfl, rfl, rfl, rfl⟩) fun _ => ⟨rfl, rfl⟩)
    · exact unchanged

theorem effect_flushFlows (p : List Byte) (space : Nat) {s : State} (hs : s.Entries K W) :
    Effect K W s (.flushFlows p) (effectFlushFlows p space s).state := by
  have unchanged := Effect.unchanged (K := K) (W := W) s (.flushFlows p)
  unfold effectFlushFlows
  refine withLength_state unchanged (withLane_state unchanged fun l _ => withSpace_state unchanged ?_)
  split
  · exact unchanged
  · have removed := stays_removeLaneRecords (K := K) (W := W) s l
    exact .stays (removed.trans (stays_handOn s (removed.entries hs)))

theorem effect_startProbe (p : List Byte) (space : Nat) (s : State) :
    Effect K W s (.startProbe p) (effectStartProbe p space s).state := by
  have unchanged := Effect.unchanged (K := K) (W := W) s (.startProbe p)
  unfold effectStartProbe
  refine withLength_state unchanged (withLane_state unchanged fun l _ => ?_)
  split
  · exact unchanged
  · refine withSpace_state unchanged ?_
    split
    · exact .stays (stays_requestProbe s l _)
    · exact unchanged

theorem effect_writeClass (p : List Byte) (space : Nat) (s : State) :
    Effect K W s (.writeClass p) (effectWriteClass p space s).state := by
  have unchanged := Effect.unchanged (K := K) (W := W) s (.writeClass p)
  unfold effectWriteClass
  refine withLength_state unchanged ?_
  split
  · exact unchanged
  · split
    · exact unchanged
    · rename_i i _ _ w hw
      exact withSpace_state unchanged (.window i w (classEntryAt_weight hw) rfl)

theorem effect_readFlows (p : List Byte) (space : Nat) (s : State) :
    Effect K W s (.readFlows p) (effectReadFlows p space s).state := by
  have unchanged := Effect.unchanged (K := K) (W := W) s (.readFlows p)
  unfold effectReadFlows
  refine withLength_state unchanged (withLane_state unchanged fun l _ => ?_)
  dsimp only
  split
  · exact unchanged
  · exact withSpace_state unchanged unchanged

theorem effect_evictFlow (p : List Byte) (space : Nat) {s : State} (hs : s.Entries K W) :
    Effect K W s (.evictFlow p) (effectEvictFlow p space s).state := by
  have unchanged := Effect.unchanged (K := K) (W := W) s (.evictFlow p)
  unfold effectEvictFlow
  refine withLength_state unchanged (withLane_state unchanged fun l _ => ?_)
  dsimp only
  split
  · exact unchanged
  · rename_i v _
    refine withLength_state unchanged (withSpace_state unchanged ?_)
    split
    · have removed := stays_removeRecord (K := K) (W := W) s l (keyAt v p 2)
      exact .stays (removed.trans (stays_handOn s (removed.entries hs)))
    · exact unchanged

theorem effect_ackEvents (p : List Byte) (space : Nat) {s : State} (hs : s.Entries K W) :
    Effect K W s (.ackEvents p) (effectAckEvents p space s).state := by
  have unchanged := Effect.unchanged (K := K) (W := W) s (.ackEvents p)
  have cleared : s.Stays K W { s with latch := s.latch &&& ~~~ (BitVec.ofNat 19 (fieldAt p 0 3)) } :=
    .of_eq rfl rfl rfl rfl rfl rfl rfl rfl
  have latched := cleared.trans (stays_forEachLane (fun l u _ => stays_latchOverload u l) (cleared.entries hs))
  unfold effectAckEvents
  refine withLength_state unchanged (withSpace_state unchanged ?_)
  dsimp only
  exact .stays latched

theorem effect_writeChip (p : List Byte) (space : Nat) (s : State) :
    Effect K W s (.writeChip p) (effectWriteChip p space s).state := by
  have unchanged := Effect.unchanged (K := K) (W := W) s (.writeChip p)
  unfold effectWriteChip
  refine withLength_state unchanged ?_
  split
  · exact unchanged
  · exact withSpace_state unchanged (.stays (.of_eq rfl rfl rfl rfl rfl rfl rfl rfl))

theorem effect_readClass (p : List Byte) (space : Nat) (s : State) :
    Effect K W s (.readClass p) (effectReadClass p space s).state := by
  have unchanged := Effect.unchanged (K := K) (W := W) s (.readClass p)
  unfold effectReadClass
  refine withLength_state unchanged ?_
  split
  · exact unchanged
  · exact withSpace_state unchanged unchanged

theorem effect_chipReset (p : List Byte) (space : Nat) (s : State) :
    Effect K W s (.chipReset p) (effectChipReset p space s).state := by
  unfold effectChipReset
  split
  · rename_i h
    exact .reset h rfl
  · exact Effect.unchanged s _

/-- The effect of every command, by its row. -/
theorem effect_of_outcome (c : Instr) (space : Nat) {s : State} (hs : s.Entries K W) :
    Effect K W s c (c.outcome space s).state := by
  have unchanged := Effect.unchanged (K := K) (W := W) s c
  cases c
  case keepalive p => exact withSpace_state unchanged (.stays (stays_keepalive s _))
  case readChip p => exact withSpace_state unchanged unchanged
  case writeChip p => exact effect_writeChip p space s
  case setTimebase p => exact withLength_state unchanged (withSpace_state unchanged (.stays (stays_timer s _)))
  case ackEvents p => exact effect_ackEvents p space hs
  case setLaneMode p => exact effect_setLaneMode p space s
  case writeLaneParams p => exact effect_writeLaneParams p space s
  case readLane p => exact withLength_state unchanged (withLane_state unchanged fun _ _ => withSpace_state unchanged unchanged)
  case readCounters p => exact effect_readCounters p space s
  case flushFlows p => exact effect_flushFlows p space hs
  case releaseLane p =>
    exact withLength_state unchanged (withLane_state unchanged fun l hl => withSpace_state unchanged (.released l hl rfl))
  case startProbe p => exact effect_startProbe p space s
  case writeClass p => exact effect_writeClass p space s
  case readClass p => exact effect_readClass p space s
  case readFlows p => exact effect_readFlows p space s
  case evictFlow p => exact effect_evictFlow p space hs
  case chipReset p => exact effect_chipReset p space s
  all_goals exact unchanged

/-! ### One command -/

/-- All that a command can be, with what it answers. Most leave every mode as it stands; an inbound frame is forwarded
or consumed; an outbound one that is not dropped is one frame more; the pins set every block. -/
inductive Answer (K : FlowKey → Prop) (W : Nat → Prop) (s : State) : Instr → State → Prop where
  | stays {c : Instr} {t : State} (other : ∀ (l : LaneId) (f : Frame), c = .outboundArrival l f →
        s.clocked = false ∨ isOversize f = true ∨ (isBad f = false ∧ isControl s.control.etherType s.straps.addr f = true))
      (h : s.Stays K W t) : Answer K W s c t
  | forwarded {t : State} (l : LaneId) (f : Frame) (h : (s.sendStation l f).Stays K W t) :
      Answer K W s (.inboundArrival l f) t
  | consumed {t : State} (l : LaneId) (f : Frame) (enabled : controlEnabled s.straps.ctlsel l = true)
      (h : t = s.receiveControl l f) : Answer K W s (.inboundArrival l f) t
  | outbound {t : State} (l : LaneId) (f : Frame) (clocked : s.clocked = true) (size : isOversize f = false)
      (taken : isBad f = true ∨ isControl s.control.etherType s.straps.addr f = false) (frame : t = s.outboundFrame l f)
      (h : s.Moves K W (Pi.single l 1) t) : Answer K W s (.outboundArrival l f) t
  | frameEnd {t : State} (l : LaneId) (h : t = s.endFrame l) : Answer K W s (.outputFrameEnd l) t
  | handover {t : State} (h : t = s.takeHandOver) : Answer K W s .responseHandover t
  | drained {t : State} (l : LaneId) (h : t = s.drain l) : Answer K W s (.drainRelease l) t
  | monitor {c : Instr} {t : State} (tick : c = .keepaliveTick ∨ c = .keepaliveExpiry) (h : t = s.monitorTick) :
      Answer K W s c t
  | command {c : Instr} {t : State} {code : Byte} {params : List Byte} {space : Nat}
      (row : c.command = some (code, params)) (now : s.spaceFor code params = some space)
      (h : t = s.writeItem code (c.outcome space s) c.isChipReset)
      (effect : Effect K W s c (c.outcome space s).state) : Answer K W s c t
  | pins {c : Instr} {t : State} (level : Bool) (straps : Straps)
      (pin : c = .powerOn ∨ c = .rstNAssert ∨ ∃ (a : BitVec 4) (k : BitVec 2) (p : BitVec 1), c = .rstNRelease a k p)
      (h : t = { s.powerOnBlocks with rstN := level, straps := straps }) : Answer K W s c t

theorem answer_inbound {s : State} (hs : s.Supply K W) (l : LaneId) (f : Frame) :
    Answer K W s (.inboundArrival l f) (if s.clocked then s.inboundFrame l f else s) := by
  have stays : ∀ {t : State}, s.Stays K W t → Answer K W s (.inboundArrival l f) t := .stays fun _ _ e => nomatch e
  split
  · unfold State.inboundFrame
    split
    · exact stays (stays_countLane s l _)
    · split
      · exact .forwarded l f (stays_countLane _ l _)
      · split
        · rename_i hc
          exact .consumed l f (Bool.and_eq_true_iff.mp hc).1 rfl
        · split
          · exact .forwarded l f (stays_countLane _ l _)
          · rename_i g hg
            exact .forwarded l f (stays_inboundSegment ⟨hs.entries, hs.segments, hs.lookups⟩ hg)
  · exact stays (.refl s)

theorem answer_outbound {s : State} (hs : s.Supply K W) (l : LaneId) (f : Frame) :
    Answer K W s (.outboundArrival l f) (if s.clocked then s.outboundFrame l f else s) := by
  have stays : ∀ {t : State}, (s.clocked = false ∨ isOversize f = true ∨
      (isBad f = false ∧ isControl s.control.etherType s.straps.addr f = true)) → s.Stays K W t →
      Answer K W s (.outboundArrival l f) t := by
    refine fun other h => .stays (fun l' f' e => ?_) h
    cases e
    exact other
  split
  · rename_i clocked
    by_cases size : isOversize f = true
    · simp only [State.outboundFrame, size, if_true]
      exact stays (.inr (.inl size)) (stays_countLane s l _)
    · have size' := Bool.eq_false_iff.mpr size
      by_cases bad : isBad f = true
      · refine .outbound l f clocked size' (.inl bad) rfl ?_
        simp only [State.outboundFrame, size', bad, if_true]
        exact (moves_makeReady s l f).trans_stays (stays_countLane _ l _)
      · have good : goodFrame f := ⟨size', Bool.eq_false_iff.mpr bad⟩
        by_cases ctl : isControl s.control.etherType s.straps.addr f = true
        · rw [outboundFrame_good good, if_pos ctl]
          exact stays (.inr (.inr ⟨good.2, ctl⟩)) (stays_countLane s l _)
        · refine .outbound l f clocked size' (.inr (Bool.eq_false_iff.mpr ctl)) rfl ?_
          rw [outboundFrame_good good, if_neg ctl]
          split
          · exact (moves_makeReady s l f).trans_stays (stays_countLane _ l _)
          · rename_i g hg
            exact moves_outboundSegment hs hg
  · rename_i clocked
    exact stays (.inl (Bool.eq_false_iff.mpr clocked)) (.refl s)

theorem stays_limitEvent {s : State} (hs : s.Entries K W) (slot : Nat) (r : FlowRecord) :
    s.Stays K W (s.limitEvent slot r) :=
  (stays_pool s (poolMoves_limitSlot s slot)).trans (stays_handOn s hs)

/-- An event that acts only where its condition stands. -/
theorem stays_ite {s t : State} {c : Prop} [Decidable c] (h : s.Stays K W t) : s.Stays K W (if c then t else s) := by
  split
  · exact h
  · exact .refl s

/-- What exec answers to every command in every state. -/
theorem exec_answer {c : Instr} {s t : State} (hs : s.Supply K W) (h : exec c s = .next t) : Answer K W s c t := by
  have ent := hs.entries
  have command : ∀ (code : Byte) (params : List Byte), c.command = some (code, params) → Answer K W s c t := by
    intro code params hc
    cases now : s.spaceFor code params with
    | none =>
      rw [exec_command_notNow hc now] at h
      cases h
      exact .stays (fun l f e => by subst e; cases hc) (.refl s)
    | some space =>
      rw [exec_command_done hc now] at h
      cases h
      exact .command hc now rfl (effect_of_outcome c space ent)
  have stays : s.Stays K W t → (∀ (l : LaneId) (f : Frame), c ≠ .outboundArrival l f) → Answer K W s c t :=
    fun hst hne => .stays (fun l f e => absurd e (hne l f)) hst
  cases c
  case inboundArrival l f => cases h; exact answer_inbound hs l f
  case outboundArrival l f => cases h; exact answer_outbound hs l f
  case powerOn => cases h; exact .pins s.rstN Straps.reset (.inl rfl) rfl
  case rstNAssert => cases h; exact .pins false Straps.reset (.inr (.inl rfl)) rfl
  case rstNRelease a k p =>
    cases h
    split
    · exact .stays (fun _ _ e => nomatch e) (.refl s)
    · exact .pins true ⟨a, k, p⟩ (.inr (.inr ⟨a, k, p, rfl⟩)) rfl
  case outputFrameEnd l =>
    cases h
    split
    · exact .frameEnd l rfl
    · exact .stays (fun _ _ e => nomatch e) (.refl s)
  case responseHandover =>
    cases h
    split
    · exact .handover rfl
    · exact .stays (fun _ _ e => nomatch e) (.refl s)
  case drainRelease l =>
    cases h
    split
    · exact .drained l rfl
    · exact .stays (fun _ _ e => nomatch e) (.refl s)
  case epochTick => cases h; exact stays (stays_ite (stays_timerTick ent)) fun _ _ => nofun
  case flowTableTick =>
    cases h
    exact stays (stays_ite (stays_forEachLane (fun _ _ hu => stays_flowTickLane hu) ent)) fun _ _ => nofun
  case expectationTimeout slot =>
    cases h
    refine stays ?_ fun _ _ => nofun
    split
    · exact stays_ite (stays_limitEvent ent _ _)
    · exact .refl s
  case ageLimit slot =>
    cases h
    refine stays ?_ fun _ _ => nofun
    split
    · exact stays_ite (stays_limitEvent ent _ _)
    · exact .refl s
  case gateTick =>
    cases h
    exact stays (stays_ite (stays_forEachLane (fun _ _ hu => stays_gateTickLane hu) ent)) fun _ _ => nofun
  case holdLimit l => cases h; exact stays (stays_ite (stays_reevaluateLoop _ _ l ent)) fun _ _ => nofun
  case probeTick =>
    cases h
    have tick := stays_engineTick ent
    exact stays (stays_ite (tick.trans (stays_forEachLane (fun l u _ => stays_intervalTick l u) (tick.entries ent))))
      fun _ _ => nofun
  case probeWindowStart =>
    cases h
    refine stays ?_ fun _ _ => nofun
    split
    · exact stays_ite (stays_engineTick ent)
    · exact .refl s
    · exact .refl s
  case probeCompletion => cases h; exact stays (stays_ite (stays_engineTick ent)) fun _ _ => nofun
  case probeIntervalRequest l => cases h; exact stays (stays_ite (stays_intervalTick l s)) fun _ _ => nofun
  case keepaliveTick =>
    cases h
    split
    · exact .monitor (.inl rfl) rfl
    · exact .stays (fun _ _ e => nomatch e) (.refl s)
  case keepaliveExpiry =>
    cases h
    split
    · exact .monitor (.inr rfl) rfl
    · exact .stays (fun _ _ e => nomatch e) (.refl s)
  case refclkStop => cases h; exact stays (.of_eq rfl rfl rfl rfl rfl rfl rfl rfl) fun _ _ => nofun
  case refclkReturn => cases h; exact stays (.of_eq rfl rfl rfl rfl rfl rfl rfl rfl) fun _ _ => nofun
  all_goals exact command _ _ rfl

end

end Sys2Proof.Machine

/-! SUPPORT. The end of a frame, the hand-over and CHIP-RESET as the table of records sees them, and the rule by which an
invariant of the records, the parameters and the match windows is kept by every step. -/

namespace Sys2Proof.Machine

/-! ### What the arbiter and the control engine leave of the table -/

/-- What the arbiter and the control engine may change: the arbiter part of each lane, and nothing of the records, the
match windows, the modes, the parameters and the queues. -/
structure State.ArbiterOnly (s t : State) : Prop where
  lanes : ∀ l : LaneId, ∃ (o : Option Frame) (r : List Frame) (p : Option Frame),
    t.lane l = { s.lane l with output := o, ready := r, response := p }
  pool : t.pool = s.pool
  windows : t.windows = s.windows
  straps : t.straps = s.straps

theorem State.ArbiterOnly.of_lanes {s t : State} (lanes : t.lanes = s.lanes) (pool : t.pool = s.pool)
    (windows : t.windows = s.windows) (straps : t.straps = s.straps) : s.ArbiterOnly t :=
  ⟨fun l => ⟨_, _, _, State.lane_congr lanes l⟩, pool, windows, straps⟩

theorem State.ArbiterOnly.trans {s t u : State} (h : s.ArbiterOnly t) (h' : t.ArbiterOnly u) : s.ArbiterOnly u where
  lanes l := by
    obtain ⟨o, r, p, e⟩ := h.lanes l
    obtain ⟨o', r', p', e'⟩ := h'.lanes l
    exact ⟨o', r', p', by rw [e', e]⟩
  pool := h'.pool.trans h.pool
  windows := h'.windows.trans h.windows
  straps := h'.straps.trans h.straps

/-- An update of the arbiter of one lane. -/
theorem arbiterOnly_modLane (s : State) (l : LaneId) {f : LaneState → LaneState}
    (h : ∃ (o : Option Frame) (r : List Frame) (p : Option Frame),
      f (s.lane l) = { s.lane l with output := o, ready := r, response := p }) : s.ArbiterOnly (s.modLane l f) := by
  refine ⟨fun l' => ?_, rfl, rfl, rfl⟩
  rw [State.lane_modLane]
  split
  · rename_i e; rw [e]; exact h
  · exact ⟨_, _, _, rfl⟩

theorem nextOutput_eq (x : LaneState) : ∃ (o : Option Frame) (r : List Frame) (p : Option Frame),
    x.nextOutput = { x with output := o, ready := r, response := p } := by
  unfold LaneState.nextOutput
  split
  · exact ⟨_, _, _, rfl⟩
  · exact ⟨_, _, _, rfl⟩
  · exact ⟨_, _, _, rfl⟩

theorem State.ArbiterOnly.takeFrame {s t : State} (h : s.ArbiterOnly t) : s.ArbiterOnly t.takeFrame := by
  refine h.trans ?_
  unfold State.takeFrame
  split <;> exact .of_lanes rfl rfl rfl rfl

theorem arbiterOnly_receiveControl (s : State) (l : LaneId) (f : Frame) : s.ArbiterOnly (s.receiveControl l f) := by
  unfold State.receiveControl
  split
  · exact .of_lanes rfl rfl rfl rfl
  · split
    · exact State.ArbiterOnly.takeFrame (.of_lanes rfl rfl rfl rfl)
    · exact .of_lanes rfl rfl rfl rfl

theorem arbiterOnly_takeHandOver (s : State) : s.ArbiterOnly s.takeHandOver := by
  have refl : s.ArbiterOnly s := .of_lanes rfl rfl rfl rfl
  unfold State.takeHandOver
  split
  · split
    · rename_i l r _ _
      have taken : s.ArbiterOnly (s.modLane l fun x =>
          if x.output = none then { x with output := some r } else { x with response := some r }) := by
        refine arbiterOnly_modLane s l ?_
        split
        · exact ⟨_, _, _, rfl⟩
        · exact ⟨_, _, _, rfl⟩
      exact State.ArbiterOnly.takeFrame (taken.trans (.of_lanes rfl rfl rfl rfl))
    · exact refl
  · exact refl
  · exact refl

theorem arbiterOnly_offerSlot (s : State) (l : LaneId) : s.ArbiterOnly (s.offerSlot l) := by
  unfold State.offerSlot
  split
  · split
    · exact arbiterOnly_takeHandOver s
    · exact .of_lanes rfl rfl rfl rfl
  · exact .of_lanes rfl rfl rfl rfl
  · exact .of_lanes rfl rfl rfl rfl

/-- The lane's arbiter once its output has finished a frame, before any drain release: the next frame started, and a
waiting response taken into the slot that this freed (R16, R17). -/
def State.served (s : State) (l : LaneId) (f : Frame) : State :=
  let s1 := (s.sendFabric l f).modLane l LaneState.nextOutput
  if (s.lane l).response.isSome then s1.offerSlot l else s1

theorem endFrame_of_output {s : State} {l : LaneId} {f : Frame} (h : (s.lane l).output = some f) :
    s.endFrame l = (s.served l f).drain l := by
  unfold State.endFrame State.served
  rw [h]
  exact (apply_ite (fun u : State => u.drain l) _ _ _).symm

theorem endFrame_of_idle {s : State} {l : LaneId} (h : (s.lane l).output = none) : s.endFrame l = s := by
  unfold State.endFrame
  rw [h]

theorem arbiterOnly_served (s : State) (l : LaneId) (f : Frame) : s.ArbiterOnly (s.served l f) := by
  have sent : s.ArbiterOnly (s.sendFabric l f) := .of_lanes rfl rfl rfl rfl
  have started := sent.trans (arbiterOnly_modLane (s.sendFabric l f) l (nextOutput_eq _))
  unfold State.served
  dsimp only
  split
  · exact started.trans (arbiterOnly_offerSlot _ l)
  · exact started

/-- Writing an item and walking on change the control engine alone. -/
theorem arbiterOnly_writeItem (s : State) (code : Byte) (o : CommandOutcome) (last : Bool) :
    o.state.ArbiterOnly (s.writeItem code o last) := by
  unfold State.writeItem
  split <;> exact .of_lanes rfl rfl rfl rfl

section

variable {K : FlowKey → Prop} {W : Nat → Prop}

theorem State.ArbiterOnly.entries {s t : State} (h : s.ArbiterOnly t) (hs : s.Entries K W) : t.Entries K W := by
  intro l
  obtain ⟨o, r, p, e⟩ := h.lanes l
  rw [e]
  exact hs l

/-! ### The rule for invariants of the table -/

/-- Every lane at its power-on parameters with nothing held, every match window at its power-on values, and no record. -/
structure State.FreshTable (t : State) : Prop where
  lanes : ∀ l : LaneId, (t.lane l).params = LaneParams.reset ∧ (t.lane l).queue = []
  windows : ∀ i : Fin 64, t.windows.get i = MatchWindow.reset
  pool : t.pool = []

/-- What is kept of the table by the operations on it, by the arbiter, by WRITE-LANE-PARAMS and WRITE-CLASS, and holds of
a table at its power-on values. -/
structure TableRule (K : FlowKey → Prop) (W : Nat → Prop) (P : State → Prop) : Prop where
  moves : ∀ {s t : State} {n : LaneId → Nat}, P s → s.Moves K W n t → P t
  arbiter : ∀ {s t : State}, P s → s.ArbiterOnly t → P t
  params : ∀ (s : State) (l : LaneId) (new : LaneParams), P s →
    P (s.modLane l fun x => { x with params := new.clamped (s.recordCount l) })
  window : ∀ (s : State) (i : Fin 64) (w : MatchWindow), 1 ≤ w.weight ∧ w.weight ≤ 15 → P s →
    P { s with windows := s.windows.set i.val w i.isLt }
  fresh : ∀ {t : State}, t.FreshTable → P t

theorem freshTable_powerOn (s : State) (level : Bool) (straps : Straps) :
    State.FreshTable { s.powerOnBlocks with rstN := level, straps := straps } where
  lanes l := by
    have e : State.lane { s.powerOnBlocks with rstN := level, straps := straps } l = LaneState.reset :=
      State.lane_reset l
    rw [e]
    exact ⟨rfl, rfl⟩
  windows i := by simp [State.powerOnBlocks, State.reset, Vector.get_eq_getElem]
  pool := rfl

theorem mem_allLanes : ∀ l : LaneId, l ∈ allLanes := by decide

/-- An update of every lane gives each lane its own. -/
theorem lane_forEachLane_modLane (s : State) (f : LaneState → LaneState) (l : LaneId) :
    (forEachLane (fun l s => s.modLane l f) s).lane l = f (s.lane l) := by
  have go : ∀ (ls : List LaneId) (s : State), ls.Nodup →
      (ls.foldl (fun s l => s.modLane l f) s).lane l = if l ∈ ls then f (s.lane l) else s.lane l := by
    intro ls
    induction ls with
    | nil => intro s _; rfl
    | cons k rest ih =>
      intro s hn
      obtain ⟨hk, hr⟩ := List.nodup_cons.mp hn
      rw [List.foldl_cons, ih _ hr, State.lane_modLane]
      by_cases e : l = k
      · subst e; simp [hk]
      · simp [e]
  unfold forEachLane
  rw [go allLanes s (by decide), if_pos (mem_allLanes l)]

/-- A lane after CHIP-RESET (R18, R171). -/
theorem lane_chipReset (s : State) (l : LaneId) : s.chipReset.lane l = (s.lane l).chipReset :=
  lane_forEachLane_modLane s LaneState.chipReset l

theorem freshTable_chipReset (s : State) : s.chipReset.FreshTable where
  lanes l := by rw [lane_chipReset]; exact ⟨rfl, rfl⟩
  windows i := by simp [State.chipReset, Vector.get_eq_getElem]
  pool := rfl

theorem TableRule.effect {P : State → Prop} (rule : TableRule K W P) {s t : State} {c : Instr} (hs : s.Entries K W)
    (h : Effect K W s c t) (hP : P s) : P t := by
  cases h with
  | stays h => exact rule.moves hP h.toMoves
  | mode l req _ h => exact rule.moves hP (moves_changeMode hs h)
  | params l new _ _ stored h =>
    subst h stored
    have stored := rule.params s l new hP
    split
    · exact rule.moves stored (stays_recompute _ l).toMoves
    · exact stored
  | released l _ h => exact h ▸ rule.moves hP (moves_releaseLane l hs)
  | window i w weight h => exact h ▸ rule.window s i w weight hP
  | reset _ h => exact h ▸ rule.fresh (freshTable_chipReset s)

/-- Every command keeps what the rule keeps. -/
theorem TableRule.exec {P : State → Prop} (rule : TableRule K W P) {s t : State} {c : Instr} (hs : s.Supply K W)
    (h : exec c s = .next t) (hP : P s) : P t := by
  cases exec_answer hs h with
  | stays _ h => exact rule.moves hP h.toMoves
  | forwarded l f h => exact rule.moves (rule.arbiter (t := s.sendStation l f) hP (.of_lanes rfl rfl rfl rfl)) h.toMoves
  | consumed l f _ h => exact h ▸ rule.arbiter hP (arbiterOnly_receiveControl s l f)
  | outbound l f _ _ _ _ h => exact rule.moves hP h
  | frameEnd l h =>
    subst h
    obtain ho | ⟨f, ho⟩ := Option.eq_none_or_eq_some (s.lane l).output
    · rw [endFrame_of_idle ho]; exact hP
    · rw [endFrame_of_output ho]
      have served := arbiterOnly_served s l f
      exact rule.moves (rule.arbiter hP served) (moves_drain (served.entries hs.entries))
  | handover h => exact h ▸ rule.arbiter hP (arbiterOnly_takeHandOver s)
  | drained l h => exact h ▸ rule.moves hP (moves_drain hs.entries)
  | monitor _ h => exact h ▸ rule.moves hP (moves_monitorTick hs.entries)
  | command _ _ h effect => exact h ▸ rule.arbiter (rule.effect hs.entries effect hP) (arbiterOnly_writeItem ..)
  | pins level straps _ h => exact h ▸ rule.fresh (freshTable_powerOn s level straps)

end

/-- What a cycle of the clock and every command keep, every step keeps. -/
theorem step_keeps {P : State → Prop} (cycle : ∀ s : State, P s → P s.clockCycle)
    (taken : ∀ (s : State) (rest : List Instr), P s → P { s with pending := rest })
    (run : ∀ (c : Instr) (s t : State), P s → exec c s = .next t → P t) {s t : State} (hP : P s)
    (h : step s = .next t) : P t := by
  unfold step at h
  split at h
  · cases h; exact cycle s hP
  · exact run _ _ t (taken s _ hP) h

end Sys2Proof.Machine

/-! SUPPORT. The invariants of the flow table, the parameters and the match windows, each by the rule of the table
(R54 to R64, R79, R10, R42). -/

namespace Sys2Proof.Machine

/-- Any connection and any weight may be used: what an invariant needs that reads neither. -/
theorem supply_any (s : State) : s.Supply (fun _ => True) (fun _ => True) :=
  ⟨fun _ _ _ => ⟨trivial, fun _ _ => trivial⟩, fun _ _ _ _ => trivial, fun _ _ => trivial⟩

/-- A canonical pool has at most 1024 records (R54). -/
theorem length_le_of_poolSlotsFrom {n : Nat} {pool : List FlowRecord} (h : poolSlotsFrom n pool = true) :
    pool.length ≤ Config.poolSlots - n := by
  induction pool generalizing n with
  | nil => exact Nat.zero_le _
  | cons r rest ih =>
    simp only [poolSlotsFrom, Bool.and_eq_true, decide_eq_true_eq] at h
    have := ih h.2
    rw [List.length_cons]
    omega

theorem recordCount_le_of_canonical {s : State} (h : s.PoolCanonical) (l : LaneId) :
    s.recordCount l ≤ Config.poolSlots :=
  (List.length_filter_le ..).trans (length_le_of_poolSlotsFrom h)

theorem State.ArbiterOnly.lane_stands {s t : State} (h : s.ArbiterOnly t) (l : LaneId) :
    (t.lane l).params = (s.lane l).params ∧ (t.lane l).queue = (s.lane l).queue ∧ (t.lane l).mode = (s.lane l).mode ∧
      (t.lane l).target = (s.lane l).target := by
  obtain ⟨o, r, p, e⟩ := h.lanes l
  rw [e]
  exact ⟨rfl, rfl, rfl, rfl⟩

theorem storeParams_lane (s : State) (l l' : LaneId) (p : LaneParams) :
    ((s.modLane l fun x => { x with params := p }).lane l').params = (if l' = l then p else (s.lane l').params) ∧
      ((s.modLane l fun x => { x with params := p }).lane l').queue = (s.lane l').queue := by
  rw [State.lane_modLane]
  split
  · rename_i e; exact ⟨rfl, by rw [e]⟩
  · exact ⟨rfl, rfl⟩

theorem recordCount_le_clamped (p : LaneParams) (n : Nat) : n ≤ (p.clamped n).quota := le_max_left ..

/-- The bounds of the flow table (R54, R55, R57). -/
structure State.TableBounds (s : State) : Prop where
  canonical : s.PoolCanonical
  unique : s.KeysUnique
  quotas : s.QuotasKept
  expected : s.ExpectedWithin

theorem tableRule_bounds : TableRule (fun _ => True) (fun _ => True) State.TableBounds where
  moves h m :=
    { canonical := m.pool.keeps_poolWf h.canonical
      unique := m.pool.keeps_unique h.unique
      quotas := fun l => by rw [m.params l]; exact m.pool.keeps_quota l (h.quotas l)
      expected := m.pool.keeps_expected h.expected }
  arbiter {s t} h a := by
    have pool := a.pool
    refine ⟨?_, ?_, fun l => ?_, ?_⟩
    · rw [State.PoolCanonical, pool]; exact h.canonical
    · rw [State.KeysUnique, pool]; exact h.unique
    · rw [(a.lane_stands l).1, State.recordCount, State.records, pool]; exact h.quotas l
    · rw [State.ExpectedWithin, pool]; exact h.expected
  params s l new h := by
    refine ⟨h.canonical, h.unique, fun l' => ?_, h.expected⟩
    rw [(storeParams_lane s l l' _).1]
    split
    · rename_i e; rw [e]; exact recordCount_le_clamped new _
    · exact h.quotas l'
  window _ _ _ _ h := ⟨h.canonical, h.unique, h.quotas, h.expected⟩
  fresh {t} f := by
    refine ⟨?_, ?_, fun l => ?_, ?_⟩
    · rw [State.PoolCanonical, f.pool]; rfl
    · rw [State.KeysUnique, f.pool]; exact List.nodup_nil
    · rw [State.recordCount, State.records, f.pool]; exact Nat.zero_le _
    · rw [State.ExpectedWithin, f.pool]; exact fun _ h => nomatch h

/-! ### Keys -/

theorem bytesAt_length {bs : List Byte} {off n : Nat} (h : off + n ≤ bs.length) : (bytesAt bs off n).length = n := by
  simp only [bytesAt, List.length_take, List.length_drop]
  omega

theorem length_contentsOf (f : Frame) : (contentsOf f).length = f.length - 4 := by
  simp only [contentsOf, List.length_take]
  omega

/-- The addresses of an IP packet have the length of its version (R7, R8). -/
theorem parseIp_addresses {f : Frame} {h : EtherHeader} {ip : IpPacket} (e : parseIp f h = some ip) :
    ip.srcAddr.length = ip.version.addrBytes ∧ ip.dstAddr.length = ip.version.addrBytes := by
  unfold parseIp at e
  dsimp only at e
  rw [length_contentsOf] at e
  split at e
  · unfold parseIpv4 at e
    dsimp only at e
    split at e
    · rename_i c
      obtain rfl := Option.some.inj e
      exact ⟨bytesAt_length (by omega), bytesAt_length (by omega)⟩
    · cases e
  · split at e
    · unfold parseIpv6 at e
      dsimp only at e
      split at e
      · rename_i c
        obtain rfl := Option.some.inj e
        exact ⟨bytesAt_length (by omega), bytesAt_length (by omega)⟩
      · cases e
    · cases e

theorem keyLegal_iff (k : FlowKey) : k.legal = true ↔
    k.stationAddr.length = k.version.addrBytes ∧ k.remoteAddr.length = k.version.addrBytes := by
  unfold FlowKey.legal
  cases k.version <;> simp [IpVersion.addrBytes]

/-- The key of a segment is that of an IPv4 or an IPv6 connection (R12). -/
theorem keyLegal_of_segmentOf {d : Direction} {f : Frame} {g : Segment} (h : segmentOf d f = some g) :
    g.key.legal = true := by
  obtain ⟨e, ip, -, hip, hg⟩ := segmentOf_eq_some h
  obtain ⟨hs, hd⟩ := parseIp_addresses hip
  unfold parseTcp at hg
  dsimp only at hg
  split at hg
  · obtain rfl := Option.some.inj hg
    cases d with
    | outbound => exact (keyLegal_iff _).mpr ⟨hs, hd⟩
    | inbound => exact (keyLegal_iff _).mpr ⟨hd, hs⟩
  · cases hg

/-- A legal key, as what an event may use. -/
abbrev keyLegal (k : FlowKey) : Prop := k.legal = true

theorem entries_of_keysLegal {s : State} (h : s.KeysLegal) : s.Entries keyLegal (fun _ => True) :=
  fun l e he => ⟨h.2 l e he, fun _ _ => trivial⟩

theorem supply_of_keysLegal {s : State} (h : s.KeysLegal) : s.Supply keyLegal (fun _ => True) :=
  ⟨entries_of_keysLegal h, fun _ _ _ hg => keyLegal_of_segmentOf hg, fun _ _ => trivial⟩

theorem tableRule_keys : TableRule keyLegal (fun _ => True) State.KeysLegal where
  moves h m := ⟨m.pool.keeps_keys h.1, fun l e he => (m.entries (entries_of_keysLegal h) l e he).1⟩
  arbiter {s t} h a := by
    refine ⟨by rw [a.pool]; exact h.1, fun l => ?_⟩
    rw [(a.lane_stands l).2.1]
    exact h.2 l
  params s l new h := by
    refine ⟨h.1, fun l' => ?_⟩
    rw [(storeParams_lane s l l' _).2]
    exact h.2 l'
  window _ _ _ _ h := h
  fresh {t} f := by
    refine ⟨by rw [f.pool]; exact (fun _ h => nomatch h), fun l => ?_⟩
    rw [(f.lanes l).2]
    exact fun _ h => nomatch h

/-- Settles O54: both invariants by the rule of the table. -/
theorem stepKeepsTheFlowTable : Obligations.StepKeepsTheFlowTable := by
  unfold Obligations.StepKeepsTheFlowTable
  refine ⟨fun s t canonical unique quotas expected h => ?_, fun s t keys h => ?_⟩
  · have kept : t.TableBounds := step_keeps (P := State.TableBounds)
      (fun s hs => tableRule_bounds.moves hs (stays_clockCycle s).toMoves) (fun _ _ hs => ⟨hs.1, hs.2, hs.3, hs.4⟩)
      (fun c s t hs h => tableRule_bounds.exec (supply_any s) h hs) ⟨canonical, unique, quotas, expected⟩ h
    exact ⟨kept.canonical, kept.unique, kept.quotas, kept.expected⟩
  · exact step_keeps (P := State.KeysLegal) (fun s hs => tableRule_keys.moves hs (stays_clockCycle s).toMoves)
      (fun _ _ hs => hs) (fun c s t hs h => tableRule_keys.exec (supply_of_keysLegal hs) h hs) keys h

/-! ### Parameters, scales and weights -/

/-- Clamped parameters lie in their ranges where the lane's records fit the pool (R79). -/
theorem inRange_clamped (p : LaneParams) {n : Nat} (h : n ≤ Config.poolSlots) : (p.clamped n).inRange = true := by
  simp only [Config.poolSlots] at h
  simp only [LaneParams.inRange, Bool.and_eq_true, decide_eq_true_eq]
  simp only [LaneParams.clamped, clampTo, Config.max24]
  omega

theorem inRange_reset : LaneParams.reset.inRange = true := by decide

/-- The invariant behind parameters and scales: the pool is canonical too, so that a quota raised to the lane's record
count stays in its range (R54, R79). -/
structure State.ParamsAndScales (s : State) : Prop where
  canonical : s.PoolCanonical
  params : s.ParamsInRange
  scales : s.ScalesLegal

theorem tableRule_paramsAndScales : TableRule (fun _ => True) (fun _ => True) State.ParamsAndScales where
  moves h m := ⟨m.pool.keeps_poolWf h.canonical, fun l => by rw [m.params l]; exact h.params l,
    m.pool.keeps_scales h.scales⟩
  arbiter {s t} h a := by
    refine ⟨?_, fun l => ?_, ?_⟩
    · rw [State.PoolCanonical, a.pool]; exact h.canonical
    · rw [(a.lane_stands l).1]; exact h.params l
    · rw [State.ScalesLegal, a.pool]; exact h.scales
  params s l new h := by
    refine ⟨h.canonical, fun l' => ?_, h.scales⟩
    rw [(storeParams_lane s l l' _).1]
    split
    · exact inRange_clamped new (recordCount_le_of_canonical h.canonical l)
    · exact h.params l'
  window _ _ _ _ h := ⟨h.canonical, h.params, h.scales⟩
  fresh {t} f := by
    refine ⟨?_, fun l => ?_, ?_⟩
    · rw [State.PoolCanonical, f.pool]; rfl
    · rw [(f.lanes l).1]; exact inRange_reset
    · rw [State.ScalesLegal, f.pool]; exact fun _ h => nomatch h

/-- A weight of Table 3-1. -/
abbrev weightInRange (w : Nat) : Prop := 1 ≤ w ∧ w ≤ 15

theorem weightLegal_iff (k : EntryKind) : k.weightLegal = true ↔ ∀ d : ClassDecision, k = .gated d → weightInRange d.weight := by
  cases k with
  | gated d => simp [EntryKind.weightLegal]
  | follower => simp [EntryKind.weightLegal]

theorem entries_of_weightsLegal {s : State} (h : s.WeightsLegal) : s.Entries (fun _ => True) weightInRange :=
  fun l e he => ⟨trivial, (weightLegal_iff e.kind).mp (h.2.2 l e he)⟩

/-- An entry of the match table that a search finds stands in it. -/
theorem firstInTier_mem {s : State} {l : LaneId} {g : Segment} {t : Tier} {p : MatchWindow × Nat}
    (h : s.firstInTier l g t = some p) : ∃ i : Fin 64, s.windows.get i = p.1 := by
  obtain ⟨w, n⟩ := p
  have mem := List.mem_of_find?_eq_some h
  obtain ⟨-, hn, hw⟩ := List.mem_zipIdx mem
  simp only [Vector.length_toList, Nat.zero_add] at hn
  exact ⟨⟨n, hn⟩, by simpa [Vector.get_eq_getElem] using hw.symm⟩

theorem eq_some_of_orElse {α : Type} {a b : Option α} {x : α} (h : (a <|> b) = some x) : a = some x ∨ b = some x := by
  cases a with
  | none => exact .inr h
  | some y => exact .inl h

theorem selectedWindow_mem {s : State} {l : LaneId} {g : Segment} {p : MatchWindow × Nat}
    (h : s.selectedWindow l g = some p) : ∃ i : Fin 64, s.windows.get i = p.1 := by
  obtain h | h := eq_some_of_orElse h
  · exact firstInTier_mem h
  · obtain h | h := eq_some_of_orElse h
    · exact firstInTier_mem h
    · obtain h | h := eq_some_of_orElse h
      · exact firstInTier_mem h
      · exact firstInTier_mem h

/-- The weight of a lookup is an entry's, or the lane's default weight (R42). -/
theorem lookup_weight {s : State} (params : s.ParamsInRange) (weights : s.WeightsLegal) (l : LaneId) (g : Segment) :
    weightInRange (s.lookup l g).weight := by
  unfold State.lookup
  split
  · rename_i w i h
    obtain ⟨j, hj⟩ := selectedWindow_mem h
    have := weights.2.1 j
    rwa [hj] at this
  · have := params l
    simp only [LaneParams.inRange, Bool.and_eq_true, decide_eq_true_eq] at this
    exact this.1.2

theorem supply_of_weightsLegal {s : State} (params : s.ParamsInRange) (weights : s.WeightsLegal) :
    s.Supply (fun _ => True) weightInRange :=
  ⟨entries_of_weightsLegal weights, fun _ _ _ _ => trivial, lookup_weight params weights⟩

theorem tableRule_weights : TableRule (fun _ => True) weightInRange State.WeightsLegal where
  moves h m := ⟨m.pool.keeps_weights h.1, by rw [m.windows]; exact h.2.1, fun l e he =>
    (weightLegal_iff e.kind).mpr (m.entries (entries_of_weightsLegal h) l e he).2⟩
  arbiter {s t} h a := by
    refine ⟨by rw [a.pool]; exact h.1, by rw [a.windows]; exact h.2.1, fun l => ?_⟩
    rw [(a.lane_stands l).2.1]
    exact h.2.2 l
  params s l new h := by
    refine ⟨h.1, h.2.1, fun l' => ?_⟩
    rw [(storeParams_lane s l l' _).2]
    exact h.2.2 l'
  window s i w hw h := by
    refine ⟨h.1, fun j => ?_, h.2.2⟩
    rw [Vector.get_eq_getElem, Vector.getElem_set]
    split
    · exact hw
    · exact h.2.1 j
  fresh {t} f := by
    refine ⟨by rw [f.pool]; exact (fun _ h => nomatch h), fun i => ?_, fun l => ?_⟩
    · rw [f.windows i]; exact ⟨le_rfl, by decide⟩
    · rw [(f.lanes l).2]; exact fun _ h => nomatch h

/-- Settles O59: both invariants by the rule of the table. -/
theorem stepKeepsParamsAndScales : Obligations.StepKeepsParamsAndScales := by
  unfold Obligations.StepKeepsParamsAndScales
  refine ⟨fun s t canonical params scales h => ?_, fun s t params weights h => ?_⟩
  · have kept : t.ParamsAndScales := step_keeps (P := State.ParamsAndScales)
      (fun s hs => tableRule_paramsAndScales.moves hs (stays_clockCycle s).toMoves) (fun _ _ hs => ⟨hs.1, hs.2, hs.3⟩)
      (fun c s t hs h => tableRule_paramsAndScales.exec (supply_any s) h hs) ⟨canonical, params, scales⟩ h
    exact ⟨kept.params, kept.scales⟩
  · unfold step at h
    split at h
    · cases h; exact tableRule_weights.moves weights (stays_clockCycle s).toMoves
    · rename_i i rest _
      exact tableRule_weights.exec (supply_of_weightsLegal (s := { s with pending := rest }) params weights) h weights

end Sys2Proof.Machine

/-! SUPPORT. The wires, the control engine and the arbiters: which frames are where after every command, and the
invariants of the control engine and of the arbiters (R5, R13, R16, R17, R20, R117, R156, R157). -/

namespace Sys2Proof.Machine

/-! ### What the control engine leaves of the rest -/

/-- Taking a frame, receiving one and writing an item leave the lanes, the straps and the wires. -/
structure State.EngineOnly (s t : State) : Prop where
  lanes : t.lanes = s.lanes
  straps : t.straps = s.straps
  stationSent : t.stationSent = s.stationSent
  fabricSent : t.fabricSent = s.fabricSent

theorem State.EngineOnly.refl (s : State) : s.EngineOnly s := ⟨rfl, rfl, rfl, rfl⟩

theorem engineOnly_takeFrame (s : State) : s.EngineOnly s.takeFrame := by
  unfold State.takeFrame
  split <;> exact ⟨rfl, rfl, rfl, rfl⟩

theorem engineOnly_receiveControl (s : State) (l : LaneId) (f : Frame) : s.EngineOnly (s.receiveControl l f) := by
  unfold State.receiveControl
  split
  · exact ⟨rfl, rfl, rfl, rfl⟩
  · split
    · have t := engineOnly_takeFrame { s with
        control := { s.control with fifo := s.control.fifo ++ [(l, f)], accepted := bump s.control.accepted } }
      exact ⟨t.lanes, t.straps, t.stationSent, t.fabricSent⟩
    · exact ⟨rfl, rfl, rfl, rfl⟩

theorem engineOnly_writeItem (s : State) (code : Byte) (o : CommandOutcome) (last : Bool) :
    o.state.EngineOnly (s.writeItem code o last) := by
  unfold State.writeItem
  split <;> exact ⟨rfl, rfl, rfl, rfl⟩

/-- A response goes into the slot, or starts at once on an IDLE output (R17). -/
def LaneState.takeResponse (x : LaneState) (r : Frame) : LaneState :=
  if x.output = none then { x with output := some r } else { x with response := some r }

/-- A hand-over that the slot lets happen: the response on its lane, the engine IDLE, and the next frame taken. -/
theorem takeHandOver_of_slot {s : State} {l : LaneId} {r : Frame} (h : s.control.engine = .handOver l r)
    (slot : (s.lane l).response = none) : s.takeHandOver =
      State.takeFrame { s.modLane l (LaneState.takeResponse · r) with
        control := { s.control with engine := .idle } } := by
  unfold State.takeHandOver
  rw [h]
  exact if_pos slot

theorem lane_takeHandOver_of_slot {s : State} {l : LaneId} {r : Frame} (h : s.control.engine = .handOver l r)
    (slot : (s.lane l).response = none) (l' : LaneId) :
    s.takeHandOver.lane l' = (s.modLane l (LaneState.takeResponse · r)).lane l' := by
  rw [takeHandOver_of_slot h slot, State.lane_congr (engineOnly_takeFrame _).lanes l']
  rfl

/-- A hand-over waits for a full slot. -/
theorem takeHandOver_of_full {s : State} {l : LaneId} {r : Frame} (h : s.control.engine = .handOver l r)
    (slot : (s.lane l).response ≠ none) : s.takeHandOver = s := by
  unfold State.takeHandOver
  rw [h]
  exact if_neg slot

/-- Without a response in HAND-OVER there is nothing to take. -/
theorem takeHandOver_of_none {s : State} (h : ∀ (l : LaneId) (r : Frame), s.control.engine ≠ .handOver l r) :
    s.takeHandOver = s := by
  unfold State.takeHandOver
  split
  · rename_i l r e; exact absurd e (h l r)
  · rfl
  · rfl

/-- The two ways a hand-over can go. -/
theorem takeHandOver_cases (s : State) : s.takeHandOver = s ∨
    ∃ (l : LaneId) (r : Frame), s.control.engine = .handOver l r ∧ (s.lane l).response = none := by
  cases e : s.control.engine with
  | idle => exact .inl (takeHandOver_of_none fun l r h => nomatch e.symm.trans h)
  | executing f => exact .inl (takeHandOver_of_none fun l r h => nomatch e.symm.trans h)
  | handOver l r =>
    by_cases slot : (s.lane l).response = none
    · exact .inr ⟨l, r, rfl, slot⟩
    · exact .inl (takeHandOver_of_full e slot)

theorem offerSlot_of_handOver {s : State} {l : LaneId} {r : Frame} (h : s.control.engine = .handOver l r) :
    s.offerSlot l = s.takeHandOver := by
  unfold State.offerSlot
  rw [h]
  exact if_pos rfl

theorem offerSlot_of_none {s : State} {l : LaneId} (h : ∀ r : Frame, s.control.engine ≠ .handOver l r) :
    s.offerSlot l = s := by
  unfold State.offerSlot
  split
  · rename_i l' r e
    refine if_neg fun e' => ?_
    subst e'
    exact h r e
  · rfl
  · rfl

/-! ### Drain releases -/

/-- A lane that is not DRAINING has no drain release. -/
theorem drain_of_not_due {s : State} {l : LaneId} (h : (s.lane l).drainDue = false) : s.drain l = s := by
  unfold State.drain
  cases (s.lane l).queue.length with
  | zero => rfl
  | succ n => simp [State.drainLoop, h]

theorem drainDue_eq_false_iff (x : LaneState) : x.drainDue = false ↔
    (x.mode = .draining → x.ready = [] → x.queue = []) := by
  simp [LaneState.drainDue]

theorem drain_of_mode {s : State} {l : LaneId} (h : (s.lane l).mode ≠ .draining) : s.drain l = s :=
  drain_of_not_due ((drainDue_eq_false_iff _).mpr fun e => absurd e h)

/-- A finished drain takes the lane into its target, and leaves everything else of it (R33). -/
theorem finishDrain_lane (s : State) (l : LaneId) : (s.finishDrain l).lane l =
    if (s.lane l).mode = .draining ∧ (s.lane l).queue = [] then
      { s.lane l with mode := if (s.lane l).target = .monitor then .monitor else .bypass, target := .none }
    else s.lane l := by
  unfold State.finishDrain
  split
  · rw [State.lane_modLane_same]
    cases (s.lane l).target <;> rfl
  · rfl

theorem finishDrain_queue (s : State) (l : LaneId) : ((s.finishDrain l).lane l).queue = (s.lane l).queue := by
  rw [finishDrain_lane]
  split <;> rfl

/-- The drain releases leave none due: each takes one entry, and with none left the lane is not DRAINING (R117). -/
theorem drainLoop_not_due (l : LaneId) (n : Nat) : ∀ s : State, (s.lane l).queue.length ≤ n →
    ((State.drainLoop n l s).lane l).drainDue = false := by
  induction n with
  | zero =>
    intro s h
    exact (drainDue_eq_false_iff _).mpr fun _ _ => List.eq_nil_of_length_eq_zero (Nat.le_zero.mp h)
  | succ n ih =>
    intro s h
    unfold State.drainLoop
    split
    · refine ih _ ?_
      rw [finishDrain_queue]
      cases q : (s.lane l).queue with
      | nil =>
        rename_i due
        simp [LaneState.drainDue, q] at due
      | cons e rest =>
        rw [(releaseHead_spec s l e rest q).1]
        rw [q] at h
        exact Nat.le_of_succ_le_succ h
    · rename_i due
      exact Bool.eq_false_iff.mpr due

theorem drain_not_due (s : State) (l : LaneId) : ((s.drain l).lane l).drainDue = false :=
  drainLoop_not_due l _ s le_rfl

/-! ### Lanes that come to drain -/

/-- Any connection and any weight, where an event is not asked which it uses. -/
abbrev anyKey : FlowKey → Prop := fun _ => True

abbrev anyWeight : Nat → Prop := fun _ => True

/-- An event that brings no lane into DRAINING. -/
def State.NoNewDrain (s t : State) : Prop := ∀ l : LaneId, (t.lane l).mode = .draining → (s.lane l).mode = .draining

theorem State.NoNewDrain.refl (s : State) : s.NoNewDrain s := fun _ => id

theorem State.NoNewDrain.trans {s t u : State} (h : s.NoNewDrain t) (h' : t.NoNewDrain u) : s.NoNewDrain u :=
  fun l => h l ∘ h' l

section

variable {K : FlowKey → Prop} {W : Nat → Prop}

/-- Every held frame is one that some event may use, where any may. -/
theorem entries_any (s : State) : s.Entries anyKey anyWeight := (supply_any s).entries

theorem State.Stays.noNewDrain {s t : State} (h : s.Stays K W t) : s.NoNewDrain t := fun l e => (h.modes l).1 ▸ e

end

theorem noNewDrain_modLane (s : State) (l : LaneId) {f : LaneState → LaneState}
    (h : (f (s.lane l)).mode = .draining → (s.lane l).mode = .draining) : s.NoNewDrain (s.modLane l f) := by
  intro l'
  rw [State.lane_modLane]
  split
  · rename_i e; rw [e]; exact h
  · exact id

theorem noNewDrain_setMode (s : State) (l : LaneId) {m : Mode} (t : DrainTarget) (h : m ≠ .draining) :
    s.NoNewDrain (s.setMode l m t) := noNewDrain_modLane s l fun e => absurd e h

theorem noNewDrain_finishDrain (s : State) (l : LaneId) : s.NoNewDrain (s.finishDrain l) := by
  unfold State.finishDrain
  split
  · rename_i h
    exact noNewDrain_modLane s l fun _ => h.1
  · exact .refl s

theorem noNewDrain_passOut (s : State) (l : LaneId) (f : Frame) : s.NoNewDrain (s.passOut l f) := by
  intro l' h
  by_cases e : l' = l
  · rw [e] at h ⊢
    exact (passOut_modes s l f).1 ▸ h
  · rwa [(laneEvent_passOut s l f).lanes l' e] at h

theorem noNewDrain_hold (s : State) (l : LaneId) (kind : EntryKind) (key : FlowKey) (f : Frame) :
    s.NoNewDrain (s.hold l kind key f) := by
  unfold State.hold
  split
  · exact (noNewDrain_modLane s l id).trans (stays_countLane (K := anyKey) (W := anyWeight) _ l _).noNewDrain
  · have released := stays_releaseAll (l := l) (entries_any s)
    have accounted := stays_account (s := s.releaseAll l) (l := l) (e := ⟨kind, key, f, 0⟩)
      (K := anyKey) (W := anyWeight) ⟨trivial, fun _ _ => trivial⟩
    have passed := (released.trans accounted).noNewDrain.trans (noNewDrain_passOut _ l f)
    exact (passed.trans (stays_countLane (K := anyKey) (W := anyWeight) _ l .flushes).noNewDrain).trans
      (noNewDrain_finishDrain _ l)

theorem noNewDrain_gateArrival (s : State) (l : LaneId) (g : Segment) (f : Frame) (start : Bool) (d : ClassDecision) :
    s.NoNewDrain (s.gateArrival l g f start d) := by
  unfold State.gateArrival
  split
  · exact noNewDrain_hold s l _ _ f
  · split
    · split
      · exact noNewDrain_hold s l _ _ f
      · exact (stays_charge (K := anyKey) (W := anyWeight) trivial trivial).noNewDrain.trans (noNewDrain_passOut _ l f)
    · exact noNewDrain_passOut s l f

/-- The handling of an outbound frame brings no lane into DRAINING. -/
theorem noNewDrain_outboundFrame (s : State) (l : LaneId) (f : Frame) : s.NoNewDrain (s.outboundFrame l f) := by
  have counted : ∀ (u : State) (c : LaneCounter), u.NoNewDrain (u.countLane l c) := fun u c =>
    (stays_countLane (K := anyKey) (W := anyWeight) u l c).noNewDrain
  have ready : ∀ u : State, u.NoNewDrain (u.makeReady l f) := fun u =>
    noNewDrain_modLane u l fun h => by simpa using h
  unfold State.outboundFrame
  split
  · exact counted s _
  · split
    · exact (ready s).trans (counted _ _)
    · split
      · exact counted s _
      · split
        · exact (ready s).trans (counted _ _)
        · rename_i g hg
          unfold State.outboundSegment
          split
          · have reported := stays_reportSegment (s := s) (l := l) (K := anyKey) (W := anyWeight) trivial trivial
              (shiftLegal_of_segmentOf hg)
            have handed := (reported.trans (stays_handOn (l := l) s (entries_any _))).noNewDrain
            exact handed.trans (noNewDrain_gateArrival _ l g f _ _)
          · exact ready s

/-- Every lane's turn keeps a property that one turn keeps. -/
theorem forEachLane_keeps {P : State → Prop} {f : LaneId → State → State} (h : ∀ (l : LaneId) (s : State), P s → P (f l s))
    {s : State} (hs : P s) : P (forEachLane f s) := by
  unfold forEachLane
  generalize allLanes = ls
  induction ls generalizing s with
  | nil => exact hs
  | cons l rest ih => exact ih (h l s hs)

theorem noNewDrain_expireLane (l : LaneId) (s : State) : s.NoNewDrain (State.expireLane l s) := by
  unfold State.expireLane
  split
  · have left := (stays_leaveProbe (K := anyKey) (W := anyWeight)
      ((s.failsafeRelease l).setMode l .failsafe .none) l).noNewDrain
    refine State.NoNewDrain.trans (t := (s.failsafeRelease l).setMode l .failsafe .none) (fun l' h => ?_) left
    by_cases e : l' = l
    · rw [e, State.setMode, State.lane_modLane_same] at h
      cases h
    · rw [State.setMode, State.lane_modLane_ne _ _ e, State.failsafeRelease,
        (laneEvent_foldl_makeReady l _ _).lanes l' e, State.lane_modLane_ne _ _ e] at h
      exact h
  · exact .refl s

theorem noNewDrain_monitorTick (s : State) : s.NoNewDrain s.monitorTick := by
  unfold State.monitorTick
  split
  · dsimp only
    split
    · exact forEachLane_keeps (P := s.NoNewDrain) (fun l u h => h.trans (noNewDrain_expireLane l u)) (State.NoNewDrain.refl s)
    · exact .refl s
  · exact .refl s

theorem noNewDrain_releaseLane (s : State) (l : LaneId) : s.NoNewDrain (s.releaseLane l) := by
  unfold State.releaseLane
  split
  · exact (stays_releaseAll (entries_any s)).noNewDrain.trans (noNewDrain_finishDrain _ l)
  · exact .refl s

theorem noNewDrain_enterMonitor (s : State) (l : LaneId) : s.NoNewDrain (s.enterMonitor l) := by
  have entered : s.NoNewDrain ((s.removeLaneRecords l).modLane l fun x =>
      { x with mode := .monitor, target := .none, rMeas := none, intervalCount := 0 }) :=
    noNewDrain_modLane (s.removeLaneRecords l) l fun e => Mode.noConfusion e
  exact entered.trans (stays_recompute (K := anyKey) (W := anyWeight) _ l).noNewDrain

theorem noNewDrain_enterActive (s : State) (l : LaneId) : s.NoNewDrain (s.enterActive l) := by
  have entered : s.NoNewDrain (s.modLane l fun x =>
      { x with mode := .active, target := .none, intervalCount := 0 }) :=
    noNewDrain_modLane s l fun e => Mode.noConfusion e
  exact entered.trans (stays_requestProbe (K := anyKey) (W := anyWeight) _ l _).noNewDrain

theorem noNewDrain_enterBypass (s : State) (l : LaneId) : s.NoNewDrain (s.enterBypass l) := by
  have entered : s.NoNewDrain (s.setMode l .bypass .none) := noNewDrain_setMode s l _ (by decide)
  exact entered.trans (stays_leaveProbe (K := anyKey) (W := anyWeight) _ l).noNewDrain

theorem noNewDrain_returnToActive (s : State) (l : LaneId) : s.NoNewDrain (s.returnToActive l) := by
  have entered : s.NoNewDrain (s.setMode l .active .none) := noNewDrain_setMode s l _ (by decide)
  have gated := entered.trans (stays_reevaluate (l := l) (entries_any _)).noNewDrain
  exact gated.trans (noNewDrain_enterActive _ l)

/-- SET-LANE-MODE brings a lane into DRAINING by an entry alone, which leaves no drain release due (R28, R31, R117). -/
theorem changeMode_draining {s t : State} {l : LaneId} {req : RequestedMode} (h : s.changeMode l req = some t) :
    s.NoNewDrain t ∨ ∃ target : DrainTarget, t = s.enterDraining l target := by
  unfold State.changeMode at h
  split at h
  · cases h; exact .inl (.refl s)
  · cases h; exact .inl (noNewDrain_enterMonitor s l)
  · cases h
  · cases h; exact .inl (noNewDrain_enterBypass s l)
  · cases h; exact .inl (.refl s)
  · split at h
    · cases h; exact .inl (noNewDrain_enterActive s l)
    · cases h
  · split at h
    · cases h; exact .inl (noNewDrain_enterBypass s l)
    · cases h; exact .inr ⟨_, rfl⟩
  · split at h
    · cases h; exact .inl (noNewDrain_setMode s l _ (by decide))
    · cases h; exact .inr ⟨_, rfl⟩
  · cases h; exact .inl (.refl s)
  · rename_i mode; cases h; exact .inl (noNewDrain_modLane s l fun _ => mode)
  · rename_i mode; cases h; exact .inl (noNewDrain_modLane s l fun _ => mode)
  · cases h; exact .inl (noNewDrain_returnToActive s l)
  · cases h; exact .inl (noNewDrain_setMode s l _ (by decide))
  · cases h; exact .inl (noNewDrain_enterMonitor s l)
  · cases h

/-! ### The arbiters stay busy -/

/-- A lane whose IDLE output has nothing to send, and whose output, DRAINING, has a frame to send next. -/
structure LaneState.Busy (x : LaneState) : Prop where
  idle : x.IdleIsEmpty
  ready : x.mode = .draining → x.ready ≠ []

theorem busy_of_legal {s : State} (queues : s.QueuesLegal) (arbiters : s.ArbitersLegal) (l : LaneId) :
    (s.lane l).Busy :=
  ⟨(arbiters l).1, fun m r => (queues l).2.2 m ((drainDue_eq_false_iff _).mp (arbiters l).2 m r)⟩

theorem LaneState.Busy.legal {x : LaneState} (h : x.Busy) : x.IdleIsEmpty ∧ x.drainDue = false :=
  ⟨h.idle, (drainDue_eq_false_iff x).mpr fun m r => absurd r (h.ready m)⟩

theorem LaneState.Busy.moves {K : FlowKey → Prop} {W : Nat → Prop} {n : Nat} {x y : LaneState} (h : x.Busy)
    (m : x.Moves K W n y) (drain : y.mode = .draining → x.mode = .draining) : y.Busy :=
  ⟨m.idle h.idle, fun e => m.ready h.idle (h.ready (drain e))⟩

theorem LaneState.Busy.takeResponse {x : LaneState} (h : x.Busy) (r : Frame) : (x.takeResponse r).Busy := by
  unfold LaneState.takeResponse
  split
  · exact ⟨fun e => (nomatch e), h.ready⟩
  · rename_i ho
    exact ⟨fun e => absurd e ho, h.ready⟩

/-- A hand-over keeps every lane busy. -/
theorem busy_takeHandOver {s : State} (h : ∀ l : LaneId, (s.lane l).Busy) (l : LaneId) :
    (s.takeHandOver.lane l).Busy := by
  obtain e | ⟨k, r, e, slot⟩ := takeHandOver_cases s
  · rw [e]; exact h l
  · rw [lane_takeHandOver_of_slot e slot, State.lane_modLane]
    split
    · exact (h k).takeResponse r
    · exact h l

theorem idle_nextOutput (x : LaneState) : x.nextOutput.IdleIsEmpty := by
  unfold LaneState.nextOutput
  split
  · exact fun e => nomatch e
  · exact fun e => nomatch e
  · rename_i hp hr
    exact fun _ => ⟨hr, hp⟩

theorem idle_takeHandOver {s : State} {l : LaneId} (h : (s.lane l).IdleIsEmpty) :
    (s.takeHandOver.lane l).IdleIsEmpty := by
  obtain e | ⟨k, r, e, slot⟩ := takeHandOver_cases s
  · rw [e]; exact h
  · rw [lane_takeHandOver_of_slot e slot, State.lane_modLane]
    split
    · unfold LaneState.takeResponse
      split
      · exact fun e => nomatch e
      · rename_i ho
        exact fun e => absurd e ho
    · exact h

/-- The end of a frame leaves the other lanes. -/
theorem lane_served_ne (s : State) {l l' : LaneId} (f : Frame) (h : l' ≠ l) : (s.served l f).lane l' = s.lane l' := by
  have started : ((s.sendFabric l f).modLane l LaneState.nextOutput).lane l' = s.lane l' := by simp [h]
  unfold State.served
  dsimp only
  split
  · rw [← started]
    generalize (s.sendFabric l f).modLane l LaneState.nextOutput = u
    by_cases e : ∃ r : Frame, u.control.engine = .handOver l r
    · obtain ⟨r, e⟩ := e
      rw [offerSlot_of_handOver e]
      by_cases slot : (u.lane l).response = none
      · rw [lane_takeHandOver_of_slot e slot, State.lane_modLane_ne u _ h]
      · rw [takeHandOver_of_full e slot]
    · rw [offerSlot_of_none fun r e' => e ⟨r, e'⟩]
  · exact started

theorem idle_served (s : State) (l : LaneId) (f : Frame) : ((s.served l f).lane l).IdleIsEmpty := by
  have started : (((s.sendFabric l f).modLane l LaneState.nextOutput).lane l).IdleIsEmpty := by
    rw [State.lane_modLane_same]
    exact idle_nextOutput _
  unfold State.served
  dsimp only
  split
  · generalize (s.sendFabric l f).modLane l LaneState.nextOutput = u at started
    unfold State.offerSlot
    split
    · split
      · exact idle_takeHandOver started
      · exact started
    · exact started
    · exact started
  · exact started

/-- The drain releases of a lane leave its IDLE output empty and none due, and the other lanes as they stand. -/
theorem legal_drain {s : State} {l : LaneId} (idle : (s.lane l).IdleIsEmpty) :
    ((s.drain l).lane l).IdleIsEmpty ∧ ((s.drain l).lane l).drainDue = false :=
  ⟨((moves_drain (l := l) (entries_any s)).lanes l).idle idle, drain_not_due s l⟩

theorem lane_chipReset_busy {x : LaneState} (h : x.Busy) : x.chipReset.Busy :=
  ⟨h.idle, fun e => nomatch e⟩

theorem State.Moves.busy {K : FlowKey → Prop} {W : Nat → Prop} {n : LaneId → Nat} {s t : State} (m : s.Moves K W n t)
    (drain : s.NoNewDrain t) (h : ∀ l : LaneId, (s.lane l).Busy) (l : LaneId) : (t.lane l).Busy :=
  (h l).moves (m.lanes l) (drain l)

theorem legal_effect {s t : State} {c : Instr} (h : Effect anyKey anyWeight s c t)
    (busy : ∀ l : LaneId, (s.lane l).Busy) (l : LaneId) : (t.lane l).IdleIsEmpty ∧ (t.lane l).drainDue = false := by
  cases h with
  | stays h => exact (h.toMoves.busy h.noNewDrain busy l).legal
  | mode k req _ h =>
    have m := moves_changeMode (entries_any s) h
    obtain hn | ⟨target, rfl⟩ := changeMode_draining h
    · exact (m.busy hn busy l).legal
    · unfold State.enterDraining
      have left : State.Moves _ _ 0 s _ := (moves_setMode (K := anyKey) (W := anyWeight) s k .draining
        target).trans_stays (stays_leaveProbe _ k)
      by_cases e : l = k
      · rw [e]; exact legal_drain ((left.lanes k).idle (busy k).idle)
      · refine (LaneState.Busy.moves (busy l) (m.lanes l) fun hm => ?_).legal
        rw [State.enterDraining, (laneEvent_drain _ k).lanes l e, ((stays_leaveProbe (K := fun _ => True)
          (W := fun _ => True) (s.setMode k .draining target) k).modes l).1, State.setMode,
          State.lane_modLane_ne _ _ e] at hm
        exact hm
  | params k new _ _ stored h =>
    subst h stored
    have own : ∀ l : LaneId, ((s.modLane k fun x => { x with params := new.clamped (s.recordCount k) }).lane l).Busy := by
      intro l
      rw [State.lane_modLane]
      split
      · exact ⟨(busy k).idle, (busy k).ready⟩
      · exact busy l
    split
    · have again := stays_recompute (K := anyKey) (W := anyWeight)
        (s.modLane k fun x => { x with params := new.clamped (s.recordCount k) }) k
      exact (again.toMoves.busy again.noNewDrain own l).legal
    · exact (own l).legal
  | released k _ h =>
    exact h ▸ ((moves_releaseLane k (entries_any s)).busy (noNewDrain_releaseLane s k) busy l).legal
  | window i w _ h => exact h ▸ (busy l).legal
  | reset _ h =>
    rw [h, lane_chipReset]
    exact (lane_chipReset_busy (busy l)).legal

/-- Every command leaves the arbiters legal. -/
theorem exec_keeps_arbiters {s t : State} {c : Instr} (queues : s.QueuesLegal) (arbiters : s.ArbitersLegal)
    (h : exec c s = .next t) : t.ArbitersLegal := by
  have busy := busy_of_legal queues arbiters
  intro l
  cases exec_answer (supply_any s) h with
  | stays _ h => exact (h.toMoves.busy h.noNewDrain busy l).legal
  | forwarded k f h => exact (h.toMoves.busy h.noNewDrain (s := s.sendStation k f) busy l).legal
  | consumed k f _ h =>
    rw [h, State.lane_congr (engineOnly_receiveControl s k f).lanes l]
    exact (busy l).legal
  | outbound k f _ _ _ frame h =>
    exact (h.busy (frame ▸ noNewDrain_outboundFrame s k f) busy l).legal
  | frameEnd k h =>
    rw [h]
    obtain ho | ⟨f, ho⟩ := Option.eq_none_or_eq_some (s.lane k).output
    · rw [endFrame_of_idle ho]; exact (busy l).legal
    · rw [endFrame_of_output ho]
      by_cases e : l = k
      · rw [e]; exact legal_drain (idle_served s k f)
      · rw [(laneEvent_drain _ k).lanes l e, lane_served_ne s f e]
        exact (busy l).legal
  | handover h => exact h ▸ (busy_takeHandOver busy l).legal
  | drained k h =>
    rw [h]
    by_cases e : l = k
    · rw [e]; exact legal_drain (busy k).idle
    · rw [(laneEvent_drain s k).lanes l e]; exact (busy l).legal
  | monitor _ h => exact h ▸ ((moves_monitorTick (entries_any s)).busy (noNewDrain_monitorTick s) busy l).legal
  | command _ _ h effect =>
    rw [h, State.lane_congr (engineOnly_writeItem ..).lanes l]
    exact legal_effect effect busy l
  | pins level straps _ h =>
    have e : t.lane l = LaneState.reset := by rw [h]; exact State.lane_reset l
    rw [e]
    exact ⟨fun _ => ⟨rfl, rfl⟩, rfl⟩

/-- Settles O58: after every command an IDLE output has nothing to send and no drain release is due. -/
theorem stepKeepsArbitersBusy : Obligations.StepKeepsArbitersBusy := by
  unfold Obligations.StepKeepsArbitersBusy
  intro s t queues arbiters h
  unfold step at h
  split at h
  · cases h
    have cycle := stays_clockCycle (K := anyKey) (W := anyWeight) s
    exact fun l => (cycle.toMoves.busy cycle.noNewDrain (busy_of_legal queues arbiters) l).legal
  · rename_i i rest _
    exact exec_keeps_arbiters (s := { s with pending := rest }) queues arbiters h

end Sys2Proof.Machine

/-! SUPPORT. The control engine stays legal, and no frame of a lane's fabric side is lost or made (R5, R16 to R18, R20,
R106, R113, R156, R157). -/

namespace Sys2Proof.Machine

/-! ### The control engine -/

/-- The part of ControlLegal that holds also between the moment a frame is appended, or a response taken, and the moment
an IDLE engine takes the head of the FIFO. -/
structure State.ControlOpen (s : State) : Prop where
  bound : s.control.fifo.length ≤ Config.fifoFrames
  frames : ∀ p ∈ s.control.fifo, controlEnabled s.straps.ctlsel p.1 = true
  inHand : ∀ l ∈ s.control.engine.laneInHand.toList, controlEnabled s.straps.ctlsel l = true
  responses : ∀ l : LaneId, controlEnabled s.straps.ctlsel l = false → (s.lane l).response = none

theorem controlLegal_iff (s : State) :
    s.ControlLegal ↔ s.ControlOpen ∧ (s.control.engine = .idle → s.control.fifo = []) :=
  ⟨fun ⟨b, i, f, h, r⟩ => ⟨⟨b, f, h, r⟩, i⟩, fun ⟨⟨b, f, h, r⟩, i⟩ => ⟨b, i, f, h, r⟩⟩

/-- The engine after a walk has the frame's lane in hand. -/
theorem laneInHand_serve (s : State) (f : InService) : (s.serve f).control.engine.laneInHand = some f.lane := by
  have lane := (walk_keeps f.remaining f).1
  simp only [State.serve]
  split
  · exact congrArg some lane
  · exact congrArg some lane

theorem ne_idle_of_laneInHand {e : ControlState} {l : LaneId} (h : e.laneInHand = some l) : e ≠ .idle := by
  rintro rfl
  cases h

/-- An IDLE engine takes the head of the FIFO, so that none is left behind an IDLE engine (R157). -/
theorem controlLegal_takeFrame {s : State} (h : s.ControlOpen) : s.takeFrame.ControlLegal := by
  unfold State.takeFrame
  split
  · rename_i l f rest _ fifo
    have enabled := h.frames
    rw [fifo] at enabled
    have hand := laneInHand_serve { s with control := { s.control with fifo := rest } } (openService l f)
    have bound := h.bound
    rw [fifo, List.length_cons] at bound
    refine (controlLegal_iff _).mpr ⟨⟨Nat.le_of_succ_le bound, fun p hp => enabled p (List.mem_cons_of_mem _ hp), ?_,
      h.responses⟩, fun e => absurd e (ne_idle_of_laneInHand hand)⟩
    rw [hand]
    exact fun k hk => List.mem_singleton.mp hk ▸ enabled (l, f) (List.mem_cons_self ..)
  · rename_i no
    refine (controlLegal_iff s).mpr ⟨h, fun idle => ?_⟩
    cases fifo : s.control.fifo with
    | nil => rfl
    | cons p rest => exact absurd fifo (no p.1 p.2 rest idle)

theorem State.Shifts.controlLegal {K : FlowKey → Prop} {W : Nat → Prop} {n : LaneId → Nat} {s t : State}
    (m : s.Shifts K W n t) (h : s.ControlLegal) : t.ControlLegal := by
  obtain ⟨bound, idle, frames, hand, responses⟩ := h
  rw [← m.straps] at frames hand responses
  rw [← m.fifo] at bound idle frames
  rw [← m.engine] at idle hand
  exact ⟨bound, idle, frames, hand, fun l e => (m.lanes l).response.trans (responses l e)⟩

theorem controlLegal_receiveControl {s : State} {l : LaneId} (f : Frame) (h : s.ControlLegal)
    (enabled : controlEnabled s.straps.ctlsel l = true) : (s.receiveControl l f).ControlLegal := by
  obtain ⟨⟨bound, frames, hand, responses⟩, idle⟩ := (controlLegal_iff s).mp h
  unfold State.receiveControl
  split
  · exact h
  · split
    · rename_i room
      refine controlLegal_takeFrame ⟨?_, fun p hp => ?_, hand, responses⟩
      · rw [List.length_append]
        exact room
      · obtain hp | hp := List.mem_append.mp hp
        · exact frames p hp
        · obtain rfl := List.mem_singleton.mp hp
          exact enabled
    · exact h

/-- A response is taken on the lane in hand, which is control-enabled. -/
theorem controlLegal_takeHandOver {s : State} (h : s.ControlLegal) : s.takeHandOver.ControlLegal := by
  obtain e | ⟨l, r, e, slot⟩ := takeHandOver_cases s
  · rw [e]; exact h
  · obtain ⟨⟨bound, frames, hand, responses⟩, -⟩ := (controlLegal_iff s).mp h
    have enabled : controlEnabled s.straps.ctlsel l = true := hand l (by simp [e, ControlState.laneInHand])
    rw [takeHandOver_of_slot e slot]
    refine controlLegal_takeFrame ⟨bound, frames, fun _ hk => (nomatch hk), fun k hk => ?_⟩
    have ne : k ≠ l := by rintro rfl; exact Bool.false_ne_true (hk.symm.trans enabled)
    exact (congrArg LaneState.response (State.lane_modLane_ne s (LaneState.takeResponse · r) ne)).trans (responses k hk)

theorem response_nextOutput {x : LaneState} (h : x.response = none) : x.nextOutput.response = none := by
  unfold LaneState.nextOutput
  split
  · rfl
  · exact h
  · exact h

theorem controlLegal_served {s : State} (l : LaneId) (f : Frame) (h : s.ControlLegal) : (s.served l f).ControlLegal := by
  have started : ((s.sendFabric l f).modLane l LaneState.nextOutput).ControlLegal := by
    obtain ⟨bound, idle, frames, hand, responses⟩ := h
    refine ⟨bound, idle, frames, hand, fun k hk => ?_⟩
    rw [State.lane_modLane]
    split
    · rename_i e
      exact response_nextOutput (responses l (e ▸ hk))
    · exact responses k hk
  unfold State.served State.offerSlot
  dsimp only
  split
  · split
    · split
      · exact controlLegal_takeHandOver started
      · exact started
    · exact started
    · exact started
  · exact started

/-- What a command's effect leaves of the control engine: the frame in service, and the FIFO or an empty one. -/
theorem control_effect {s t : State} {c : Instr} (h : Effect anyKey anyWeight s c t) (legal : s.ControlLegal) :
    t.ControlLegal ∧ t.control.engine = s.control.engine ∧ t.straps = s.straps := by
  have shifts : ∀ {u : State}, s.Shifts anyKey anyWeight 0 u →
      u.ControlLegal ∧ u.control.engine = s.control.engine ∧ u.straps = s.straps :=
    fun m => ⟨m.controlLegal legal, m.engine, m.straps⟩
  cases h with
  | stays h => exact shifts h.toShifts
  | mode l req _ h => exact shifts (moves_changeMode (entries_any s) h).toShifts
  | params l new _ _ stored h =>
    subst h stored
    have own : s.Shifts anyKey anyWeight 0 (s.modLane l fun x => { x with params := new.clamped (s.recordCount l) }) := by
      refine ⟨fun k => ?_, rfl, rfl, rfl, rfl, rfl⟩
      rw [State.lane_modLane]
      split
      · rename_i e; rw [e]; exact .of_same rfl rfl rfl rfl
      · exact .refl _
    split
    · have again := (stays_recompute (K := anyKey) (W := anyWeight)
        (s.modLane l fun x => { x with params := new.clamped (s.recordCount l) }) l).toShifts
      exact ⟨again.controlLegal (own.controlLegal legal), again.engine, again.straps⟩
    · exact shifts own
  | released l _ h => exact h ▸ shifts (moves_releaseLane l (entries_any s)).toShifts
  | window i w _ h => exact h ▸ ⟨legal, rfl, rfl⟩
  | reset _ h =>
    obtain ⟨-, -, -, hand, responses⟩ := legal
    rw [h]
    have straps : s.chipReset.straps = s.straps :=
      (forEachLane_keeps (P := fun u => u.straps = s.straps) (fun _ _ e => e) rfl :)
    rw [State.ControlLegal, straps]
    refine ⟨⟨Nat.zero_le _, fun _ => rfl, fun _ hp => (nomatch hp), hand, fun l hl => ?_⟩, rfl, rfl⟩
    rw [lane_chipReset]
    exact responses l hl

/-- Writing an item goes on with the frame in service, whose lane the engine has in hand. -/
theorem controlLegal_writeItem {s : State} {code : Byte} {o : CommandOutcome} (last : Bool)
    (effect : o.state.ControlLegal ∧ o.state.control.engine = s.control.engine ∧ o.state.straps = s.straps) :
    (s.writeItem code o last).ControlLegal := by
  obtain ⟨legal, engine, -⟩ := effect
  unfold State.writeItem
  dsimp only
  split
  · rename_i f executing
    obtain ⟨⟨bound, frames, hand, responses⟩, -⟩ := (controlLegal_iff _).mp legal
    rw [engine, executing] at hand
    have inHand := laneInHand_serve { o.state with lastItem := some ⟨code, o.status.code, o.results⟩ }
      { f.decideNext o.status o.results with
        abandoned := (f.decideNext o.status o.results).abandoned || (last && decide (o.status = .ok)) }
    refine (controlLegal_iff _).mpr ⟨⟨bound, frames, ?_, responses⟩, fun e => absurd e (ne_idle_of_laneInHand inHand)⟩
    rw [inHand]
    exact hand
  · exact legal
  · exact legal

theorem controlLegal_powerOn (s : State) (level : Bool) (straps : Straps) :
    State.ControlLegal { s.powerOnBlocks with rstN := level, straps := straps } := by
  refine ⟨Nat.zero_le _, fun _ => rfl, fun _ hp => (nomatch hp), fun _ hp => (nomatch hp), fun l _ => ?_⟩
  exact congrArg LaneState.response (State.lane_reset l)

/-- Every command keeps the control engine legal. -/
theorem exec_keeps_controlLegal {s t : State} {c : Instr} (legal : s.ControlLegal) (h : exec c s = .next t) :
    t.ControlLegal := by
  cases exec_answer (supply_any s) h with
  | stays _ h => exact h.toShifts.controlLegal legal
  | forwarded l f h => exact h.toShifts.controlLegal (s := s.sendStation l f) legal
  | consumed l f enabled h => exact h ▸ controlLegal_receiveControl f legal enabled
  | outbound l f _ _ _ _ h => exact h.toShifts.controlLegal legal
  | frameEnd l h =>
    rw [h]
    obtain ho | ⟨f, ho⟩ := Option.eq_none_or_eq_some (s.lane l).output
    · rw [endFrame_of_idle ho]; exact legal
    · rw [endFrame_of_output ho]
      exact (moves_drain (entries_any _)).toShifts.controlLegal (controlLegal_served l f legal)
  | handover h => exact h ▸ controlLegal_takeHandOver legal
  | drained l h => exact h ▸ (moves_drain (entries_any s)).toShifts.controlLegal legal
  | monitor _ h => exact h ▸ (moves_monitorTick (entries_any s)).toShifts.controlLegal legal
  | command _ _ h effect => exact h ▸ controlLegal_writeItem _ (control_effect effect legal)
  | pins level straps _ h => exact h ▸ controlLegal_powerOn s level straps

/-! ### A sealed part -/

/-- What CTLSEL = 11 asks of the part (R20). -/
structure State.AllShut (s : State) : Prop where
  bypass : ∀ l : LaneId, (s.lane l).mode = .bypass
  fifo : s.control.fifo = []
  engine : s.control.engine = .idle

theorem sealed_iff (s : State) : s.Sealed ↔ (s.straps.ctlsel = 3 → s.AllShut) :=
  ⟨fun h e => ⟨(h e).1, (h e).2.1, (h e).2.2⟩, fun h e => ⟨(h e).bypass, (h e).fifo, (h e).engine⟩⟩

theorem controlEnabled_three (l : LaneId) : controlEnabled 3 l = false := rfl

/-- With no lane control-enabled no command is executed (log entry 2). -/
theorem spaceFor_of_shut {s : State} (h : s.AllShut) (ctlsel : s.straps.ctlsel = 3) (code : Byte) (params : List Byte) :
    s.spaceFor code params = none := by
  unfold State.spaceFor
  rw [h.engine, ctlsel]
  refine if_neg fun ⟨_, _, any⟩ => ?_
  obtain ⟨l, -, hl⟩ := List.any_eq_true.mp any
  cases (controlEnabled_three l).symm.trans hl

/-- An outbound frame of a lane in BYPASS leaves its mode. -/
theorem outboundFrame_mode_bypass {s : State} {l : LaneId} (f : Frame) (h : (s.lane l).mode = .bypass) :
    ((s.outboundFrame l f).lane l).mode = .bypass := by
  have ready : ((s.makeReady l f).lane l).mode = .bypass := (makeReady_queue s l f).2.trans h
  have counted : ∀ {u : State} (c : LaneCounter), (u.lane l).mode = .bypass → ((u.countLane l c).lane l).mode = .bypass :=
    fun c hu => (accounted_countLane _ l c).mode.trans hu
  unfold State.outboundFrame
  split
  · exact counted _ h
  · split
    · exact counted _ ready
    · split
      · exact counted _ h
      · split
        · exact counted _ ready
        · unfold State.outboundSegment
          rw [h]
          exact ready

theorem expireLane_of_shut {s : State} (h : s.AllShut) (l : LaneId) : State.expireLane l s = s := by
  unfold State.expireLane
  rw [h.bypass l]
  rfl

theorem monitorTick_of_shut {s : State} (h : s.AllShut) : s.monitorTick.AllShut := by
  unfold State.monitorTick
  split
  · dsimp only
    split
    · exact forEachLane_keeps (P := State.AllShut) (fun l u hu => (expireLane_of_shut hu l).symm ▸ hu)
        ⟨h.bypass, h.fifo, h.engine⟩
    · exact ⟨h.bypass, h.fifo, h.engine⟩
  · exact h

theorem State.Stays.allShut {K : FlowKey → Prop} {W : Nat → Prop} {s t : State} (m : s.Stays K W t) (h : s.AllShut) :
    t.AllShut := ⟨fun l => (m.modes l).1.trans (h.bypass l), m.fifo.trans h.fifo, m.engine.trans h.engine⟩

theorem endFrame_of_shut {s : State} (h : s.AllShut) (l : LaneId) : (s.endFrame l).AllShut := by
  obtain ho | ⟨f, ho⟩ := Option.eq_none_or_eq_some (s.lane l).output
  · rw [endFrame_of_idle ho]; exact h
  · have none : ∀ r : Frame, ((s.sendFabric l f).modLane l LaneState.nextOutput).control.engine ≠ .handOver l r :=
      fun r e => nomatch h.engine.symm.trans e
    have served : s.served l f = (s.sendFabric l f).modLane l LaneState.nextOutput := by
      unfold State.served
      dsimp only
      rw [offerSlot_of_none none, ite_self]
    have only := arbiterOnly_served s l f
    have bypass : ∀ k : LaneId, ((s.served l f).lane k).mode = .bypass :=
      fun k => (only.lane_stands k).2.2.1.trans (h.bypass k)
    rw [endFrame_of_output ho, drain_of_mode (by rw [bypass l]; decide)]
    exact ⟨bypass, by rw [served]; exact h.fifo, by rw [served]; exact h.engine⟩

/-- What every command leaves of the straps, but the pins. -/
theorem exec_keeps_straps {s t : State} {c : Instr} (h : exec c s = .next t) :
    t.straps = s.straps ∨ ∃ (level : Bool) (straps : Straps), t = { s.powerOnBlocks with rstN := level, straps := straps } := by
  cases exec_answer (supply_any s) h with
  | stays _ h => exact .inl h.straps
  | forwarded l f h => exact .inl h.straps
  | consumed l f _ h => exact .inl (h ▸ (engineOnly_receiveControl s l f).straps)
  | outbound l f _ _ _ _ h => exact .inl h.straps
  | frameEnd l h =>
    rw [h]
    obtain ho | ⟨f, ho⟩ := Option.eq_none_or_eq_some (s.lane l).output
    · rw [endFrame_of_idle ho]; exact .inl rfl
    · rw [endFrame_of_output ho]
      exact .inl ((moves_drain (entries_any _)).straps.trans (arbiterOnly_served s l f).straps)
  | handover h => exact .inl (h ▸ (arbiterOnly_takeHandOver s).straps)
  | drained l h => exact .inl (h ▸ (moves_drain (entries_any s)).straps)
  | monitor _ h => exact .inl (h ▸ (moves_monitorTick (entries_any s)).straps)
  | command _ _ h effect =>
    rw [h, (engineOnly_writeItem ..).straps]
    cases effect with
    | stays h => exact .inl h.straps
    | mode l req _ h => exact .inl (moves_changeMode (entries_any s) h).straps
    | params l new _ _ stored h =>
      rw [h]
      split
      · rw [(stays_recompute (K := anyKey) (W := anyWeight) _ l).straps, stored]; exact .inl rfl
      · rw [stored]; exact .inl rfl
    | released l _ h => rw [h]; exact .inl (moves_releaseLane l (entries_any s)).straps
    | window i w _ h => rw [h]; exact .inl rfl
    | reset _ h =>
      rw [h]
      exact .inl (forEachLane_keeps (P := fun u => u.straps = s.straps) (fun _ _ e => e) rfl :)
  | pins level straps _ h => exact .inr ⟨level, straps, h⟩

/-- Every command keeps a sealed part sealed. -/
theorem exec_keeps_sealed {s t : State} {c : Instr} (hs : s.Sealed) (h : exec c s = .next t) : t.Sealed := by
  rw [sealed_iff] at hs ⊢
  intro ctlsel
  obtain straps | ⟨level, straps, rfl⟩ := exec_keeps_straps h
  · rw [straps] at ctlsel
    have shut := hs ctlsel
    cases exec_answer (supply_any s) h with
    | stays _ h => exact h.allShut shut
    | forwarded l f h => exact h.allShut (s := s.sendStation l f) ⟨shut.bypass, shut.fifo, shut.engine⟩
    | consumed l f enabled h =>
      rw [ctlsel, controlEnabled_three] at enabled
      cases enabled
    | outbound l f _ _ _ frame h =>
      refine ⟨fun k => ?_, h.fifo.trans shut.fifo, h.engine.trans shut.engine⟩
      by_cases e : k = l
      · rw [frame, e]; exact outboundFrame_mode_bypass f (shut.bypass l)
      · rw [frame, (laneEvent_outboundFrame s l f).lanes k e]; exact shut.bypass k
    | frameEnd l h => exact h ▸ endFrame_of_shut shut l
    | handover h => exact h ▸ (takeHandOver_of_none fun _ _ e => nomatch shut.engine.symm.trans e).symm ▸ shut
    | drained l h => exact h ▸ (drain_of_mode (s := s) (by rw [shut.bypass l]; decide)).symm ▸ shut
    | monitor _ h => exact h ▸ monitorTick_of_shut shut
    | command _ now _ _ => exact nomatch (spaceFor_of_shut shut ctlsel _ _).symm.trans now
    | pins level straps _ h => exact h ▸ ⟨fun l => congrArg LaneState.mode (State.lane_reset l), rfl, rfl⟩
  · exact ⟨fun l => congrArg LaneState.mode (State.lane_reset l), rfl, rfl⟩

/-- Settles O57: the control engine stays legal, and a sealed part sealed. -/
theorem stepKeepsControlLegal : Obligations.StepKeepsControlLegal := by
  unfold Obligations.StepKeepsControlLegal
  intro s t legal isSealed h
  have kept : t.ControlLegal ∧ t.Sealed := step_keeps (P := fun u => u.ControlLegal ∧ u.Sealed)
    (fun s hs => by
      have cycle := stays_clockCycle (K := anyKey) (W := anyWeight) s
      refine ⟨cycle.toShifts.controlLegal hs.1, (sealed_iff _).mpr fun e => cycle.allShut ((sealed_iff s).mp hs.2 ?_)⟩
      rwa [cycle.straps] at e)
    (fun _ _ hs => hs) (fun c s t hs h => ⟨exec_keeps_controlLegal hs.1 h, exec_keeps_sealed hs.2 h⟩)
    ⟨legal, isSealed⟩ h
  exact kept

/-! ### No frame is lost or made -/

/-- A lane's frames on the fabric side: those sent, and those that have not left. -/
theorem length_framesOf (s : State) (l : LaneId) :
    (s.framesOf l).length = (s.fabricSent.get l).length + (s.lane l).frameCount := by
  simp only [State.framesOf, State.outgoing, LaneState.frameCount, List.length_append, List.length_map]
  omega

theorem State.Shifts.length_framesOf {K : FlowKey → Prop} {W : Nat → Prop} {n : LaneId → Nat} {s t : State}
    (m : s.Shifts K W n t) (l : LaneId) : (t.framesOf l).length = (s.framesOf l).length + n l := by
  rw [Machine.length_framesOf, Machine.length_framesOf, m.fabricSent, (m.lanes l).count, Nat.add_assoc]

theorem State.EngineOnly.framesOf {s t : State} (h : s.EngineOnly t) (l : LaneId) : t.framesOf l = s.framesOf l := by
  simp only [State.framesOf, State.outgoing, h.fabricSent, State.lane_congr h.lanes l]

/-- A response taken is one frame more on its lane (R17). -/
theorem frameCount_takeResponse {x : LaneState} (r : Frame) (slot : x.response = none) :
    (x.takeResponse r).frameCount = x.frameCount + 1 := by
  unfold LaneState.takeResponse
  split
  · rename_i ho
    simp only [LaneState.frameCount, slot, ho, List.length_append, Option.toList]
    simp only [List.length_cons, List.length_nil]
    omega
  · simp only [LaneState.frameCount, slot, List.length_append, Option.toList]
    simp only [List.length_cons, List.length_nil]
    omega

/-- The frame that has been sent is one less of those that have not left (R16). -/
theorem frameCount_nextOutput {x : LaneState} {f : Frame} (h : x.output = some f) :
    x.nextOutput.frameCount + 1 = x.frameCount := by
  unfold LaneState.nextOutput
  split
  · rename_i hr
    simp only [LaneState.frameCount, h, hr, List.length_append, Option.toList, List.length_cons, List.length_nil]
    omega
  · rename_i hr hd
    simp only [LaneState.frameCount, h, hr, hd, List.length_append, Option.toList, List.length_cons, List.length_nil]
    omega
  · rename_i hr hd
    simp only [LaneState.frameCount, h, hr, hd, List.length_append, Option.toList, List.length_cons, List.length_nil]
    omega

theorem fabricSent_takeHandOver (s : State) : s.takeHandOver.fabricSent = s.fabricSent := by
  obtain e | ⟨l, r, e, slot⟩ := takeHandOver_cases s
  · rw [e]
  · rw [takeHandOver_of_slot e slot, (engineOnly_takeFrame _).fabricSent]
    rfl

/-- A hand-over adds the response to its lane, and nothing to the others. -/
theorem length_framesOf_takeHandOver {s : State} {l : LaneId} {r : Frame} (h : s.control.engine = .handOver l r)
    (slot : (s.lane l).response = none) (k : LaneId) :
    (s.takeHandOver.framesOf k).length = (s.framesOf k).length + if k = l then 1 else 0 := by
  rw [length_framesOf, length_framesOf, fabricSent_takeHandOver, lane_takeHandOver_of_slot h slot, State.lane_modLane]
  split
  · rename_i e
    rw [frameCount_takeResponse r slot, e, Nat.add_assoc]
  · rfl

/-- The end of a frame moves the frame being sent to those sent. -/
theorem length_framesOf_started {s : State} {l : LaneId} {f : Frame} (h : (s.lane l).output = some f) (k : LaneId) :
    (((s.sendFabric l f).modLane l LaneState.nextOutput).framesOf k).length = (s.framesOf k).length := by
  rw [length_framesOf, length_framesOf, State.lane_modLane, State.modLane_fabricSent]
  have sent : (s.sendFabric l f).fabricSent.get k = if k = l then s.fabricSent.get l ++ [f] else s.fabricSent.get k := by
    by_cases e : k = l
    · subst e; simp [State.sendFabric, Vector.get_eq_getElem]
    · have ne : l.val ≠ k.val := fun h => e (Fin.ext h.symm)
      simp [State.sendFabric, Vector.get_eq_getElem, Vector.getElem_set_ne _ _ ne, e]
  rw [sent]
  split
  · rename_i e
    have one := frameCount_nextOutput h
    simp only [State.lane_sendFabric, List.length_append, List.length_singleton, e]
    omega
  · rfl

/-- The end of a frame leaves the number of frames, but for a waiting response that it takes. -/
theorem length_framesOf_endFrame (s : State) (l k : LaneId) :
    ((s.endFrame l).framesOf k).length = (s.framesOf k).length ∨
      (((s.endFrame l).framesOf k).length = (s.framesOf k).length + 1 ∧ k = l ∧
        ∃ r : Frame, s.control.engine = .handOver l r ∧ (s.lane l).response ≠ none) := by
  obtain ho | ⟨f, ho⟩ := Option.eq_none_or_eq_some (s.lane l).output
  · rw [endFrame_of_idle ho]; exact .inl rfl
  · have started := length_framesOf_started ho k
    rw [endFrame_of_output ho, (moves_drain (entries_any _)).toShifts.length_framesOf k]
    unfold State.served
    dsimp only
    split
    · rename_i slot
      by_cases e : ∃ r : Frame, s.control.engine = .handOver l r
      · obtain ⟨r, e⟩ := e
        have free : (((s.sendFabric l f).modLane l LaneState.nextOutput).lane l).response = none := by
          obtain ⟨x, hx⟩ := Option.isSome_iff_exists.mp slot
          simp [LaneState.nextOutput, hx]
        have taken := length_framesOf_takeHandOver (s := (s.sendFabric l f).modLane l LaneState.nextOutput) e free k
        rw [offerSlot_of_handOver (s := (s.sendFabric l f).modLane l LaneState.nextOutput) e, taken, started]
        by_cases hk : k = l
        · refine .inr ⟨by rw [if_pos hk]; rfl, hk, r, e, fun hn => ?_⟩
          rw [hn] at slot
          cases slot
        · exact .inl (by rw [if_neg hk]; rfl)
      · rw [offerSlot_of_none (s := (s.sendFabric l f).modLane l LaneState.nextOutput) fun r e' => e ⟨r, e'⟩, started]
        exact .inl rfl
    · exact .inl (by rw [started]; rfl)

theorem fabricSent_chipReset (s : State) : s.chipReset.fabricSent = s.fabricSent :=
  (forEachLane_keeps (P := fun u => u.fabricSent = s.fabricSent) (fun _ _ e => e) rfl :)

/-- A command leaves the number of frames; CHIP-RESET finds no frame held, because no lane then enforces (R104, R171). -/
theorem length_framesOf_effect {s t : State} {c : Instr} (h : Effect anyKey anyWeight s c t) (queues : s.QueuesLegal)
    (l : LaneId) : (t.framesOf l).length = (s.framesOf l).length := by
  cases h with
  | stays h => exact h.toShifts.length_framesOf l
  | mode k req _ h => exact (moves_changeMode (entries_any s) h).toShifts.length_framesOf l
  | params k new _ _ stored h =>
    subst h stored
    have own : ((s.modLane k fun x => { x with params := new.clamped (s.recordCount k) }).framesOf l).length =
        (s.framesOf l).length := by
      rw [length_framesOf, length_framesOf, State.lane_modLane]
      split
      · rename_i e; rw [e]; rfl
      · rfl
    split
    · rw [(stays_recompute (K := anyKey) (W := anyWeight) _ k).toShifts.length_framesOf l]
      exact own
    · exact own
  | released k _ h => exact h ▸ (moves_releaseLane k (entries_any s)).toShifts.length_framesOf l
  | window i w _ h => exact h ▸ rfl
  | reset atRest h =>
    have rest := List.all_eq_true.mp atRest l (mem_allLanes l)
    have empty : (s.lane l).queue = [] := (queues l).2.1 (by revert rest; cases (s.lane l).mode <;> decide)
    rw [h, length_framesOf, length_framesOf, lane_chipReset, fabricSent_chipReset]
    simp only [LaneState.frameCount, LaneState.chipReset, LaneState.reset, empty]

/-- Settles O52: what each command adds to the frames of a lane's fabric side. -/
theorem noFrameIsLostOrMade : Obligations.NoFrameIsLostOrMade := by
  unfold Obligations.NoFrameIsLostOrMade
  intro c s t l queues h noPower noAssert noRelease
  cases exec_answer (supply_any s) h with
  | stays other h =>
    refine ⟨fun f e clocked size taken => ?_, fun _ => .inl (h.toShifts.length_framesOf l)⟩
    obtain ho | ho | ⟨bad, ctl⟩ := other l f e
    · cases ho.symm.trans clocked
    · cases ho.symm.trans size
    · obtain ho | ho := taken
      · cases bad.symm.trans ho
      · cases ctl.symm.trans ho
  | forwarded k f h =>
    exact ⟨fun _ e => (nomatch e), fun _ => .inl (h.toShifts.length_framesOf (s := s.sendStation k f) l)⟩
  | consumed k f _ h =>
    exact ⟨fun _ e => (nomatch e), fun _ => .inl (h ▸ congrArg List.length ((engineOnly_receiveControl s k f).framesOf l))⟩
  | outbound k f clocked size taken _ h =>
    have count := h.toShifts.length_framesOf l
    refine ⟨fun f' e _ _ _ => ?_, fun dropped => ?_⟩
    · obtain rfl : k = l := by cases e; rfl
      rwa [Pi.single_eq_same] at count
    · by_cases e : l = k
      · subst e
        obtain ho | ho | ⟨bad, ctl⟩ := dropped f rfl
        · cases ho.symm.trans clocked
        · cases ho.symm.trans size
        · obtain ho | ho := taken
          · cases bad.symm.trans ho
          · cases ctl.symm.trans ho
      · rw [Pi.single_eq_of_ne e] at count
        exact .inl count
  | frameEnd k h =>
    refine ⟨fun _ e => (nomatch e), fun _ => ?_⟩
    rw [h]
    obtain same | ⟨more, rfl, r, engine, slot⟩ := length_framesOf_endFrame s k l
    · exact .inl same
    · exact .inr ⟨more, .inr rfl, r, engine, fun e => absurd e slot, fun e => nomatch e⟩
  | handover h =>
    refine ⟨fun _ e => (nomatch e), fun _ => ?_⟩
    rw [h]
    obtain e | ⟨k, r, engine, slot⟩ := takeHandOver_cases s
    · exact .inl (by rw [e])
    · have count := length_framesOf_takeHandOver engine slot l
      by_cases e : l = k
      · subst e
        rw [if_pos rfl] at count
        exact .inr ⟨count, .inl rfl, r, engine, fun _ => rfl, fun _ => slot⟩
      · rw [if_neg e] at count
        exact .inl count
  | drained k h =>
    exact ⟨fun _ e => (nomatch e), fun _ => .inl (h ▸ (moves_drain (entries_any s)).toShifts.length_framesOf l)⟩
  | monitor tick h =>
    refine ⟨fun f e => ?_, fun _ => .inl (h ▸ (moves_monitorTick (entries_any s)).toShifts.length_framesOf l)⟩
    obtain rfl | rfl := tick <;> cases e
  | command row _ h effect =>
    refine ⟨fun f e => ?_, fun _ => .inl ?_⟩
    · subst e; cases row
    · rw [h, (engineOnly_writeItem ..).framesOf l]
      exact length_framesOf_effect effect queues l
  | pins _ _ pin _ =>
    obtain e | e | ⟨a, k, p, e⟩ := pin
    · exact absurd e noPower
    · exact absurd e noAssert
    · exact absurd e (noRelease a k p)

/-! ### The station side -/

theorem stationSent_takeHandOver (s : State) : s.takeHandOver.stationSent = s.stationSent := by
  obtain e | ⟨l, r, e, slot⟩ := takeHandOver_cases s
  · rw [e]
  · rw [takeHandOver_of_slot e slot, (engineOnly_takeFrame _).stationSent]
    rfl

theorem stationSent_endFrame (s : State) (l : LaneId) : (s.endFrame l).stationSent = s.stationSent := by
  obtain ho | ⟨f, ho⟩ := Option.eq_none_or_eq_some (s.lane l).output
  · rw [endFrame_of_idle ho]
  · rw [endFrame_of_output ho, (moves_drain (entries_any _)).stationSent]
    unfold State.served State.offerSlot
    dsimp only
    split
    · split
      · split
        · exact stationSent_takeHandOver _
        · rfl
      · rfl
      · rfl
    · rfl

theorem stationSent_effect {s t : State} {c : Instr} (h : Effect anyKey anyWeight s c t) :
    t.stationSent = s.stationSent := by
  cases h with
  | stays h => exact h.stationSent
  | mode l req _ h => exact (moves_changeMode (entries_any s) h).stationSent
  | params l new _ _ stored h =>
    subst h stored
    split
    · exact (stays_recompute (K := anyKey) (W := anyWeight) _ l).stationSent
    · rfl
  | released l _ h => exact h ▸ (moves_releaseLane l (entries_any s)).stationSent
  | window i w _ h => exact h ▸ rfl
  | reset _ h =>
    rw [h]
    exact (forEachLane_keeps (P := fun u => u.stationSent = s.stationSent) (fun _ _ e => e) rfl :)

/-- Settles O9: an inbound frame is forwarded before anything else is done with it, and no other event sends one. -/
theorem inboundFramesGoToTheStationInOrder : Obligations.InboundFramesGoToTheStationInOrder := by
  unfold Obligations.InboundFramesGoToTheStationInOrder
  refine ⟨fun l f s clocked size taken => ⟨s.inboundFrame l f, congrArg Host.Outcome.next (if_pos clocked), ?_⟩,
    fun c s t h => ?_⟩
  · unfold State.inboundFrame
    rw [size, if_neg Bool.false_ne_true]
    split
    · rfl
    · rename_i good
      obtain bad | other := taken
      · exact absurd bad good
      · rw [other, if_neg Bool.false_ne_true]
        split
        · rfl
        · rename_i g hg
          exact (stays_inboundSegment (supply_any _) hg).stationSent
  · cases exec_answer (supply_any s) h with
    | stays _ h => exact .inl h.stationSent
    | forwarded l f h => exact .inr ⟨l, f, rfl, h.stationSent⟩
    | consumed l f _ h => exact .inl (h ▸ (engineOnly_receiveControl s l f).stationSent)
    | outbound l f _ _ _ _ h => exact .inl h.stationSent
    | frameEnd l h => exact .inl (h ▸ stationSent_endFrame s l)
    | handover h => exact .inl (h ▸ stationSent_takeHandOver s)
    | drained l h => exact .inl (h ▸ (moves_drain (entries_any s)).stationSent)
    | monitor _ h => exact .inl (h ▸ (moves_monitorTick (entries_any s)).stationSent)
    | command _ _ h effect => exact .inl (h ▸ (engineOnly_writeItem ..).stationSent.trans (stationSent_effect effect))
    | pins level straps _ h => exact .inl (h ▸ rfl)

end Sys2Proof.Machine

/-! SUPPORT. The pins, reset and the clock, the lane path's first tests, the hand-over and the end of a frame, and the
commands READ-COUNTERS and CHIP-RESET (R1 to R3, R16 to R19, R168, R171, R183, R184). -/

namespace Sys2Proof.Machine

/-! ### Power-on values -/

/-- A part whose every block holds its reset values is at power-on. -/
theorem atPowerOn_of_reset {t : State} (lanes : ∀ l : LaneId, t.lane l = LaneState.reset)
    (windows : ∀ i : Fin 64, t.windows.get i = MatchWindow.reset) (pool : t.pool = []) (timer : t.timer = Timer.reset)
    (probe : t.probe = Probe.reset) (keepalive : t.keepalive = Keepalive.reset) (control : t.control = Control.reset)
    (latch : t.latch = 0) (enables : t.enables = 1) : t.AtPowerOn where
  modes l := by rw [lanes l]; exact ⟨rfl, rfl⟩
  parameters l := by rw [lanes l]; rfl
  budgets l := by rw [lanes l]; exact ⟨rfl, rfl, rfl, rfl, rfl⟩
  gate l := by rw [lanes l]; rfl
  arbiters l := by rw [lanes l]; exact ⟨rfl, rfl, rfl⟩
  counters l := by rw [lanes l]; exact ⟨rfl, rfl⟩
  windows i := windows i
  pool := pool
  timer := timer
  probe := probe
  keepalive := keepalive
  control := control
  events := by
    refine ⟨latch, fun e => ?_⟩
    rw [State.enabled, enables]
    cases e with
    | wdog => rfl
    | probe => rfl
    | ctlDrop => rfl
    | overload l => revert l; decide
    | gateFlush l => revert l; decide

theorem windows_reset (i : Fin 64) : State.reset.windows.get i = MatchWindow.reset := by
  simp [State.reset, Vector.get_eq_getElem]

theorem atPowerOn_powerOnBlocks (s : State) (level : Bool) (straps : Straps) :
    State.AtPowerOn { s.powerOnBlocks with rstN := level, straps := straps } :=
  atPowerOn_of_reset State.lane_reset windows_reset rfl rfl rfl rfl rfl rfl rfl

/-- Settles O3: each pin event sets the blocks and keeps what lies outside the part. -/
theorem pinEventsSetTheBlocks : Obligations.PinEventsSetTheBlocks := by
  unfold Obligations.PinEventsSetTheBlocks
  have quiet : ∀ (s : State) (level : Bool) (straps : Straps),
      State.alertLow { s.powerOnBlocks with rstN := level, straps := straps } = false := by
    intro s level straps
    simp [State.alertLow, State.powerOnBlocks, State.reset]
  refine ⟨fun s => ?_, fun s => ?_, fun s addr ctlsel spd low => ?_, fun s addr ctlsel spd high => ?_,
    fun s => ⟨rfl, rfl⟩⟩
  · exact ⟨_, rfl, atPowerOn_powerOnBlocks s s.rstN Straps.reset, rfl, rfl, rfl, rfl, rfl⟩
  · exact ⟨_, rfl, atPowerOn_powerOnBlocks s false Straps.reset, rfl, quiet s false Straps.reset, rfl, rfl, rfl, rfl⟩
  · refine ⟨_, congrArg Host.Outcome.next (if_neg ?_), atPowerOn_powerOnBlocks s true ⟨addr, ctlsel, spd⟩, rfl, rfl,
      quiet s true _, rfl, rfl, rfl, rfl⟩
    rw [low]
    exact Bool.false_ne_true
  · exact congrArg Host.Outcome.next (if_pos high)

/-- Settles O60: the reset state, lane by lane and block by block. -/
theorem resetStateIsLegal : Obligations.ResetStateIsLegal := by
  unfold Obligations.ResetStateIsLegal
  have none : ∀ {p : FlowRecord → Prop}, ∀ r ∈ State.reset.pool, p r := fun _ h => nomatch h
  have held : ∀ {p : QueueEntry → Prop} (l : LaneId), ∀ e ∈ (State.reset.lane l).queue, p e := by
    intro p l
    rw [State.lane_reset]
    exact fun _ h => nomatch h
  refine ⟨atPowerOn_of_reset State.lane_reset windows_reset rfl rfl rfl rfl rfl rfl rfl, fun l => ?_, fun l => ?_, ?_,
    reset_poolWf, List.nodup_nil, fun l => Nat.zero_le _, none, fun l => Nat.zero_le _, fun l h => ?_, by decide,
    ⟨List.nodup_nil, fun _ h => (nomatch h), fun _ h => (nomatch h), fun _ => rfl⟩, ?_, fun h => (nomatch h),
    fun l => ?_, fun l => ?_, none, fun l h => ?_, fun l h => ?_, ⟨none, fun i => ?_, held⟩, ⟨none, held⟩⟩
  · rw [State.lane_reset]; decide
  · rw [State.lane_reset]; exact ⟨Nat.zero_le _, fun _ => rfl, fun h => nomatch h⟩
  · simp [State.StoreWithin, State.usedCells, State.laneCells, allLanes, LaneState.reset, queueCells]
  · rw [State.overloaded, State.lane_reset] at h
    cases h
  · exact ⟨Nat.zero_le _, fun _ => rfl, fun _ h => (nomatch h), fun _ h => (nomatch h),
      fun l _ => congrArg LaneState.response (State.lane_reset l)⟩
  · rw [State.lane_reset]; exact ⟨fun _ => ⟨rfl, rfl⟩, rfl⟩
  · rw [State.lane_reset]; exact inRange_reset
  · rw [State.lane_reset] at h; cases h
  · rw [State.lane_reset] at h; cases h
  · rw [windows_reset]; exact ⟨le_rfl, by decide⟩

/-! ### In reset and without the clock -/

theorem clocked_of_reset {s : State} (h : s.rstN = false) : s.clocked = false := by
  rw [State.clocked, h, Bool.false_and]

theorem clocked_of_refclk {s : State} (h : s.refclk = false) : s.clocked = false := by
  rw [State.clocked, h, Bool.and_false]

/-- In reset the engine executes no command (R1). -/
theorem spaceFor_of_reset {s : State} (h : s.rstN = false) (code : Byte) (params : List Byte) :
    s.spaceFor code params = none := by
  unfold State.spaceFor
  rw [clocked_of_reset h, h]
  cases s.control.engine with
  | idle => exact if_neg fun c => Bool.false_ne_true c.1
  | executing f => exact if_neg fun c => Bool.false_ne_true c.1
  | handOver l r => rfl

/-- Without the clock, or in reset, no frame of a port and no event of an epoch tick acts. -/
theorem exec_of_needsClock {c : Instr} {s : State} (clock : s.clocked = false) (h : c.needsClock = true) :
    exec c s = .next s := by
  have stands : ∀ {u : State}, (if s.clocked = true then u else s) = s := by
    intro u; rw [clock]; exact if_neg Bool.false_ne_true
  have stands_and : ∀ {b : Bool} {u : State}, (if (s.clocked && b) = true then u else s) = s := by
    intro b u; rw [clock, Bool.false_and]; exact if_neg Bool.false_ne_true
  have stands_also : ∀ {p : Prop} [Decidable p] {u : State}, (if s.clocked = true ∧ p then u else s) = s := by
    intro p _ u; exact if_neg fun hp => Bool.false_ne_true (clock.symm.trans hp.1)
  cases c
  case inboundArrival | outboundArrival | outputFrameEnd | epochTick | flowTableTick | gateTick | probeTick |
      keepaliveTick => exact congrArg Host.Outcome.next stands
  case holdLimit | probeCompletion | probeIntervalRequest | keepaliveExpiry => exact congrArg Host.Outcome.next stands_and
  case expectationTimeout slot =>
    simp only [exec, execExpectationTimeout]
    split
    · rw [stands_also]
    · rfl
  case ageLimit slot =>
    simp only [exec, execAgeLimit]
    split
    · rw [stands_also]
    · rfl
  case probeWindowStart =>
    simp only [exec, execProbeWindowStart]
    split
    · rw [stands]
    · rfl
    · rfl
  all_goals cases h

/-- Settles O4: in reset every event but the pins, and without the clock every event that needs it, changes nothing. -/
theorem nothingHappensInResetOrWithoutClock : Obligations.NothingHappensInResetOrWithoutClock := by
  unfold Obligations.NothingHappensInResetOrWithoutClock
  refine ⟨fun c s low pin => ?_, fun c s stopped needs => exec_of_needsClock (clocked_of_refclk stopped) needs⟩
  by_cases needs : c.needsClock = true
  · exact exec_of_needsClock (clocked_of_reset low) needs
  · cases command : c.command with
    | some p => exact exec_command_notNow (code := p.1) (params := p.2) command (spaceFor_of_reset low _ _)
    | none =>
      have stands : ∀ {u : State}, (if s.rstN = true then u else s) = s := by
        intro u; rw [low]; exact if_neg Bool.false_ne_true
      cases c
      case responseHandover => exact congrArg Host.Outcome.next stands
      case drainRelease l => exact congrArg Host.Outcome.next stands
      case powerOn | rstNAssert | rstNRelease | refclkStop | refclkReturn => cases pin
      case inboundArrival | outboundArrival | outputFrameEnd | epochTick | flowTableTick | expectationTimeout | ageLimit |
          gateTick | holdLimit | probeTick | probeWindowStart | probeCompletion | probeIntervalRequest | keepaliveTick |
          keepaliveExpiry => exact absurd rfl needs
      all_goals cases command

/-! ### Oversize and bad frames -/

theorem isOversize_iff (f : Frame) : isOversize f = true ↔ 9216 < f.length := by
  rw [isOversize, decide_eq_true_eq]
  rfl

theorem isBad_iff (f : Frame) : isBad f = true ↔ f.length < 64 ∨ f.drop (f.length - 4) ≠ fcsBytes (contentsOf f) := by
  simp only [isBad, Bool.or_eq_true, decide_eq_true_eq]
  exact Iff.rfl

theorem exec_inbound {s : State} (clocked : s.clocked = true) (l : LaneId) (f : Frame) :
    exec (.inboundArrival l f) s = .next (s.inboundFrame l f) := congrArg Host.Outcome.next (if_pos clocked)

theorem exec_outbound {s : State} (clocked : s.clocked = true) (l : LaneId) (f : Frame) :
    exec (.outboundArrival l f) s = .next (s.outboundFrame l f) := congrArg Host.Outcome.next (if_pos clocked)

/-- Settles O5: the oversize test comes first in either direction. -/
theorem oversizeFrameIsDropped : Obligations.OversizeFrameIsDropped := by
  unfold Obligations.OversizeFrameIsDropped
  refine ⟨fun l f s clocked long => ?_, fun f len => ?_⟩
  · have size := (isOversize_iff f).mpr long
    rw [exec_inbound clocked, exec_outbound clocked, State.inboundFrame, State.outboundFrame, if_pos size, if_pos size]
    exact ⟨rfl, rfl⟩
  · rw [Bool.eq_false_iff, Ne, isOversize_iff, len]
    exact lt_irrefl _

/-- Settles O6: the bad-frame test comes next in either direction. -/
theorem badFrameIsForwarded : Obligations.BadFrameIsForwarded := by
  unfold Obligations.BadFrameIsForwarded
  intro l f s clocked len wrong
  have size : ¬ isOversize f = true := by rw [isOversize_iff]; exact Nat.not_lt.mpr len
  have bad := (isBad_iff f).mpr wrong
  rw [exec_inbound clocked, exec_outbound clocked, State.inboundFrame, State.outboundFrame, if_neg size, if_neg size,
    if_pos bad, if_pos bad]
  exact ⟨rfl, rfl⟩

/-! ### What the engine takes up -/

/-- An IDLE engine that finds a frame in the FIFO takes it up, and changes nothing else (R157). -/
theorem takeFrame_of_cons {s : State} {l : LaneId} {f : Frame} {rest : List (LaneId × Frame)}
    (idle : s.control.engine = .idle) (fifo : s.control.fifo = (l, f) :: rest) :
    s.takeFrame = { s with control := { s.control with
      fifo := rest, engine := takesUp s.control.etherType s.straps.addr l f } } := by
  have lane : (InService.walk (openService l f).remaining (openService l f)).lane = l := (walk_keeps _ _).1
  unfold State.takeFrame
  rw [idle, fifo]
  simp only [State.serve, lane]
  rfl

theorem takeFrame_of_nil {s : State} (fifo : s.control.fifo = []) : s.takeFrame = s := by
  unfold State.takeFrame
  rw [fifo]
  cases s.control.engine <;> rfl

theorem takeFrame_of_busy {s : State} (busy : s.control.engine ≠ .idle) : s.takeFrame = s := by
  unfold State.takeFrame
  split
  · rename_i idle _; exact absurd idle busy
  · rfl

/-- The frame taken up is in hand. -/
theorem laneInHand_takesUp (etherType : Nat) (addr : BitVec 4) (l : LaneId) (f : Frame) :
    (takesUp etherType addr l f).laneInHand = some l := by
  have lane : (InService.walk (openService l f).remaining (openService l f)).lane = l := (walk_keeps _ _).1
  unfold takesUp
  dsimp only
  split
  · rfl
  · exact congrArg some lane

/-- What a hand-over brings to the control engine: IDLE, or the head of the FIFO taken up. -/
theorem takeHandOver_control {s : State} {l : LaneId} {r : Frame} (h : s.control.engine = .handOver l r)
    (slot : (s.lane l).response = none) :
    (s.control.fifo = [] → s.takeHandOver.control = { s.control with engine := .idle }) ∧
      ∀ (l' : LaneId) (f : Frame) (rest : List (LaneId × Frame)), s.control.fifo = (l', f) :: rest →
        s.takeHandOver.control =
          { s.control with fifo := rest, engine := takesUp s.control.etherType s.straps.addr l' f } := by
  rw [takeHandOver_of_slot h slot]
  exact ⟨fun fifo => congrArg State.control (takeFrame_of_nil (s :=
      { s.modLane l (LaneState.takeResponse · r) with control := { s.control with engine := .idle } }) fifo),
    fun l' f rest fifo => congrArg State.control (takeFrame_of_cons (s :=
      { s.modLane l (LaneState.takeResponse · r) with control := { s.control with engine := .idle } }) rfl fifo)⟩

theorem lanes_takeHandOver {s : State} {l : LaneId} {r : Frame} (h : s.control.engine = .handOver l r)
    (slot : (s.lane l).response = none) : s.takeHandOver.lanes = (s.modLane l (LaneState.takeResponse · r)).lanes := by
  rw [takeHandOver_of_slot h slot, (engineOnly_takeFrame _).lanes]

/-- A hand-over changes the lanes and the control engine alone. -/
theorem takeHandOver_rest (s : State) : { s.takeHandOver with lanes := s.lanes, control := s.control } = s := by
  obtain e | ⟨l, r, e, slot⟩ := takeHandOver_cases s
  · rw [e]
  · rw [takeHandOver_of_slot e slot]
    unfold State.takeFrame
    split <;> rfl

/-- Settles O22: the response goes into the slot or onto the output, and the engine takes up the next frame. -/
theorem responseIsHandedOver : Obligations.ResponseIsHandedOver := by
  unfold Obligations.ResponseIsHandedOver
  intro l r s rstN engine
  have taken : exec .responseHandover s = .next s.takeHandOver := congrArg Host.Outcome.next (if_pos rstN)
  refine ⟨fun full => by rw [taken, takeHandOver_of_full engine full], fun slot => ⟨s.takeHandOver, taken, ?_⟩⟩
  obtain ⟨empty, next⟩ := takeHandOver_control engine slot
  refine ⟨lanes_takeHandOver engine slot, empty, fun l' f rest fifo => ?_, takeHandOver_rest s⟩
  rw [next l' f rest fifo]
  exact ⟨rfl, laneInHand_takesUp .., rfl, rfl⟩

/-! ### The end of a frame -/

/-- Two updates of one lane are one. -/
theorem modLane_modLane (s : State) (l : LaneId) (f g : LaneState → LaneState) :
    (s.modLane l f).modLane l g = s.modLane l fun x => g (f x) := by
  rw [State.modLane, State.lane_modLane_same]
  simp only [State.modLane, State.setLane, Vector.set_set]

theorem modLane_congr {s : State} {l : LaneId} {f g : LaneState → LaneState} (h : f (s.lane l) = g (s.lane l)) :
    s.modLane l f = s.modLane l g := by
  rw [State.modLane, State.modLane, h]

theorem exec_outputFrameEnd {s : State} {l : LaneId} {f : Frame} (clocked : s.clocked = true)
    (h : (s.lane l).output = some f) : exec (.outputFrameEnd l) s = .next ((s.served l f).drain l) :=
  congrArg Host.Outcome.next ((if_pos clocked).trans (endFrame_of_output h))

/-- With no response that waits for the slot, the next output starts, and nothing else happens (R16). -/
theorem served_of_noHandOver {s : State} {l : LaneId} (f : Frame)
    (h : ∀ r : Frame, (s.lane l).response.isSome = true → s.control.engine ≠ .handOver l r) :
    s.served l f = (s.sendFabric l f).modLane l LaneState.nextOutput := by
  unfold State.served
  dsimp only
  split
  · rename_i slot
    exact offerSlot_of_none fun r e => h r slot e
  · rfl

/-- The end of a frame that starts the next output and leaves no drain release due. -/
theorem exec_frameEnd_starts {s : State} {l : LaneId} {f : Frame} {g : LaneState → LaneState} (clocked : s.clocked = true)
    (h : (s.lane l).output = some f)
    (none : ∀ r : Frame, (s.lane l).response.isSome = true → s.control.engine ≠ .handOver l r)
    (next : (s.lane l).nextOutput = g (s.lane l)) (due : (g (s.lane l)).drainDue = false) :
    exec (.outputFrameEnd l) s = .next ((s.sendFabric l f).modLane l g) := by
  have started : (s.sendFabric l f).modLane l LaneState.nextOutput = (s.sendFabric l f).modLane l g := modLane_congr next
  rw [exec_outputFrameEnd clocked h, served_of_noHandOver f none, started,
    drain_of_not_due (by rw [State.lane_modLane_same]; exact due)]

/-- The end of a frame where a response waits for the slot: the one in the slot starts, and the waiting one is taken. -/
theorem served_of_handOver {s : State} {l : LaneId} {r : Frame} (f : Frame) (slot : (s.lane l).response.isSome = true)
    (h : s.control.engine = .handOver l r) :
    s.served l f = ((s.sendFabric l f).modLane l LaneState.nextOutput).takeHandOver := by
  unfold State.served
  dsimp only
  rw [if_pos slot]
  exact offerSlot_of_handOver (s := (s.sendFabric l f).modLane l LaneState.nextOutput) h

/-- Settles O21: by what stands in the slot, in HAND-OVER and on the ready list. -/
theorem outputStartsResponseThenReady : Obligations.OutputStartsResponseThenReady := by
  unfold Obligations.OutputStartsResponseThenReady
  intro l f s clocked output
  have kept : ∀ {x : LaneState}, (x.mode = .draining → x.ready ≠ []) → x.drainDue = false := fun h =>
    (drainDue_eq_false_iff _).mpr fun m e => absurd e (h m)
  refine ⟨fun r response ready none => ?_, fun r r' response ready engine => ?_, fun h rest response ready more => ?_,
    fun response ready mode => ?_⟩
  · exact exec_frameEnd_starts clocked output (fun r' _ => none r') (by simp only [LaneState.nextOutput, response])
      (kept ready)
  · have u : ∃ u : State, u = (s.sendFabric l f).modLane l LaneState.nextOutput := ⟨_, rfl⟩
    obtain ⟨u, hu⟩ := u
    have engine' : u.control.engine = .handOver l r' := by rw [hu]; exact engine
    have lane : u.lane l = { s.lane l with output := some r, response := none } := by
      rw [hu, State.lane_modLane_same]
      simp only [State.lane_sendFabric, LaneState.nextOutput, response]
    have slot : (u.lane l).response = none := by rw [lane]
    have lanes : u.takeHandOver.lanes =
        ((s.sendFabric l f).modLane l fun x => { x with output := some r, response := some r' }).lanes := by
      rw [lanes_takeHandOver engine' slot, hu, modLane_modLane]
      refine congrArg State.lanes (modLane_congr ?_)
      simp only [State.lane_sendFabric, LaneState.nextOutput, response, LaneState.takeResponse]
      rfl
    have due : (u.takeHandOver.lane l).drainDue = false := by
      rw [State.lane_congr lanes l, State.lane_modLane_same]
      exact kept ready
    have answer : exec (.outputFrameEnd l) s = .next u.takeHandOver := by
      rw [exec_outputFrameEnd clocked output, served_of_handOver f (by rw [response]; rfl) engine, ← hu,
        drain_of_not_due due]
    have control : u.control = s.control := by rw [hu]; rfl
    obtain ⟨empty, next⟩ := takeHandOver_control engine' slot
    rw [control] at empty next
    refine ⟨u.takeHandOver, answer, lanes, empty, fun l' f' rest fifo => ?_, ?_⟩
    · rw [next l' f' rest fifo, hu]
      exact ⟨laneInHand_takesUp .., rfl, rfl⟩
    · have rest := takeHandOver_rest u
      have back : { u with lanes := s.lanes, control := s.control } = s.sendFabric l f := by rw [hu]; rfl
      exact (congrArg (fun v : State => { v with lanes := s.lanes, control := s.control }) rest :).trans back
  · refine exec_frameEnd_starts clocked output (fun r' e => ?_) (by simp only [LaneState.nextOutput, response, ready])
      (kept more)
    rw [response] at e
    cases e
  · refine exec_frameEnd_starts clocked output (fun r' e => ?_) (by simp only [LaneState.nextOutput, response, ready])
      (kept fun m => absurd m mode)
    rw [response] at e
    cases e

/-! ### Two commands -/

theorem laneOf_of_val {v : Nat} {l : LaneId} (h : v = l.val) : laneOf v = some l := by
  subst h
  exact dif_pos l.isLt

theorem withLength_of_le {least : Nat} {params : List Byte} (h : least ≤ params.length) (s : State) (o : CommandOutcome) :
    withLength least params s o = o := if_neg (Nat.not_lt.mpr h)

theorem withLane_of_val {params : List Byte} {l : LaneId} (h : byteAt params 0 = l.val) (s : State)
    (k : LaneId → CommandOutcome) : withLane params s k = k l := by
  unfold withLane
  rw [laneOf_of_val h]

theorem withSpace_of_le {full space : Nat} (h : full ≤ space) (s : State) (o : CommandOutcome) :
    withSpace full space s o = o := if_neg (Nat.not_lt.mpr h)

theorem beBytes_one (v : Nat) : beBytes 1 v = [BitVec.ofNat 8 v] := by simp [beBytes]

/-- A command that the engine executes now: what it answers, apart from the engine and in its item. -/
theorem exec_command_spec {c : Instr} {code : Byte} {params : List Byte} {space : Nat} {s : State}
    (hc : c.command = some (code, params)) (hs : s.spaceFor code params = some space) :
    ∃ t : State, exec c s = .next t ∧ t.lastItem =
        some ⟨code, (c.outcome space s).status.code, (c.outcome space s).results⟩ ∧
      t.apartEngine = (c.outcome space s).state.apartEngine := by
  obtain ⟨apart, item⟩ := runCommand_executed hs c.isChipReset fun _ => c.outcome
  exact ⟨_, exec_of_command hc s, item, apart⟩

theorem effectReadCounters_lane {params : List Byte} {space : Nat} {l : LaneId} (s : State) (fits : 49 ≤ space)
    (len : 2 ≤ params.length) (lane : byteAt params 0 = l.val) : effectReadCounters params space s =
      ⟨.ok, beBytes 1 l.val ++ (s.lane l).counters.values.flatMap (beBytes 4),
        if byteAt params 1 ≠ 0 then s.modLane l fun x => { x with counters := LaneCounters.reset } else s⟩ := by
  have notChip : ¬ byteAt params 0 = chipTarget := by
    rw [lane, chipTarget]
    have := l.isLt
    omega
  unfold effectReadCounters
  rw [withLength_of_le len]
  dsimp only
  rw [if_neg notChip, withLane_of_val lane, readLaneCounters]
  rw [withSpace_of_le fits]
  simp only [decide_eq_true_eq]

theorem effectReadCounters_chip {params : List Byte} {space : Nat} (s : State) (fits : 13 ≤ space)
    (len : 2 ≤ params.length) (chip : byteAt params 0 = 0x80) : effectReadCounters params space s =
      ⟨.ok, beBytes 1 chipTarget ++
          [s.control.accepted, s.control.malformed, s.control.fifoFull].flatMap (beBytes 4),
        if byteAt params 1 ≠ 0 then
          { s with control := { s.control with accepted := 0, malformed := 0, fifoFull := 0 } }
        else s⟩ := by
  unfold effectReadCounters
  rw [withLength_of_le len]
  dsimp only
  rw [if_pos (show byteAt params 0 = chipTarget from chip), readChipCounters]
  dsimp only
  rw [withSpace_of_le fits]
  simp only [decide_eq_true_eq]

/-- Settles O33: a bank is returned, and zeroed where the clear flag asks it. -/
theorem readCountersReturnsAndClears : Obligations.ReadCountersReturnsAndClears := by
  unfold Obligations.ReadCountersReturnsAndClears
  refine ⟨fun params s space l now fits len lane => ?_, fun params s space now fits len chip => ?_⟩
  · obtain ⟨t, answer, item, apart⟩ := exec_command_spec (c := .readCounters params) rfl now
    rw [show (Instr.readCounters params).outcome space s = effectReadCounters params space s from rfl,
      effectReadCounters_lane s fits len lane] at item apart
    refine ⟨t, answer, by rw [item, beBytes_one]; rfl, fun keep => ?_, fun clear => ?_⟩
    · rw [apart, if_neg (not_not.mpr keep)]
    · rw [apart, if_pos clear]
      rfl
  · obtain ⟨t, answer, item, apart⟩ := exec_command_spec (c := .readCounters params) rfl now
    rw [show (Instr.readCounters params).outcome space s = effectReadCounters params space s from rfl,
      effectReadCounters_chip s fits len chip] at item apart
    refine ⟨t, answer, by rw [item, beBytes_one]; rfl, fun keep => ?_, fun clear => ?_⟩
    · rw [apart, if_neg (not_not.mpr keep)]
    · rw [apart, if_pos clear]

theorem allAtRest_iff (s : State) : s.allAtRest = true ↔ ∀ l : LaneId, (s.lane l).mode.tracking = false := by
  simp only [State.allAtRest, List.all_eq_true, Bool.not_eq_true']
  exact ⟨fun h l => h l (mem_allLanes l), fun h l _ => h l⟩

/-- A part after CHIP-RESET, its engine and arbiters set aside, is at power-on. -/
theorem atPowerOn_chipReset {s t : State} (apart : t.apartEngine = s.chipReset.apartEngine) : State.AtPowerOn { t with
    lanes := (forEachLane (fun l => (State.modLane · l fun x =>
      { x with output := none, ready := [], response := none })) t).lanes
    control := { t.control with engine := .idle } } := by
  have lanes : t.lanes = s.chipReset.lanes := (congrArg State.lanes apart :)
  refine atPowerOn_of_reset (fun l => ?_) (fun i => ?_) (congrArg State.pool apart :) (congrArg State.timer apart :)
    (congrArg State.probe apart :) (congrArg State.keepalive apart :) (congrArg State.control apart :)
    (congrArg State.latch apart :) (congrArg State.enables apart :)
  · refine (lane_forEachLane_modLane t (fun x => { x with output := none, ready := [], response := none }) l).trans ?_
    rw [State.lane_congr lanes l, lane_chipReset]
    rfl
  · have windows : t.windows = s.chipReset.windows := (congrArg State.windows apart :)
    rw [windows]
    exact (freshTable_chipReset s).windows i

/-- Settles O39: refused while a lane tracks, and otherwise every block set but the arbiters and the engine. -/
theorem chipResetRestoresEveryBlock : Obligations.ChipResetRestoresEveryBlock := by
  unfold Obligations.ChipResetRestoresEveryBlock
  intro params s space now
  obtain ⟨t, answer, item, apart⟩ := exec_command_spec (c := .chipReset params) rfl now
  rw [show (Instr.chipReset params).outcome space s = effectChipReset params space s from rfl] at item apart
  refine ⟨fun ⟨l, tracking⟩ => ⟨t, answer, ?_⟩, fun rest => ⟨t, answer, ?_⟩⟩
  · have busy : ¬ s.allAtRest = true := fun h => by
      have := (allAtRest_iff s).mp h l
      rw [tracking] at this
      cases this
    rw [effectChipReset, if_neg busy] at item apart
    exact ⟨item, apart⟩
  · rw [effectChipReset, if_pos ((allAtRest_iff s).mpr rest)] at item apart
    have lanes : t.lanes = s.chipReset.lanes := (congrArg State.lanes apart :)
    have outside : s.chipReset.straps = s.straps ∧ s.chipReset.stationSent = s.stationSent ∧
        s.chipReset.fabricSent = s.fabricSent :=
      (forEachLane_keeps (P := fun u => u.straps = s.straps ∧ u.stationSent = s.stationSent ∧
        u.fabricSent = s.fabricSent) (fun _ _ e => e) ⟨rfl, rfl, rfl⟩ :)
    refine ⟨item, atPowerOn_chipReset apart, fun l => ?_, (congrArg State.straps apart :).trans outside.1,
      (congrArg State.stationSent apart :).trans outside.2.1, (congrArg State.fabricSent apart :).trans outside.2.2⟩
    rw [State.lane_congr lanes l, lane_chipReset]
    exact ⟨rfl, rfl, rfl⟩

end Sys2Proof.Machine

/-! SUPPORT. What the control engine does with a control frame: acceptance, opening and the walk to the first command
(R5, R155 to R161). -/

namespace Sys2Proof.Machine

/-! ### The walk over commands that are not executed -/

/-- The item the walk writes for a command it does not execute. -/
def InService.passedOver (f : InService) (status : Status) : ResponseItem := ⟨f.codeByte, status.code, []⟩

theorem walk_succ (n : Nat) (f : InService) : InService.walk (n + 1) f =
    if f.remaining = 0 then f
    else if f.abandoned || f.overrun then InService.walk n (f.decideNext .abandoned [])
    else if f.codeByte ∈ commandSet then f
    else InService.walk n (f.decideNext .unknown []) := rfl

/-- From an abandoned command on, the walk passes over all and writes ABANDONED (R158). -/
theorem walk_of_abandoned (n : Nat) : ∀ f : InService, f.abandoned = true → f.remaining ≤ n →
    (InService.walk n f).remaining = 0 ∧ ∀ i ∈ (InService.walk n f).items, i ∈ f.items ∨ i.status = 0x08 := by
  induction n with
  | zero => exact fun f _ none => ⟨Nat.le_zero.mp none, fun _ h => .inl h⟩
  | succ n ih =>
    intro f abandoned fuel
    rw [walk_succ]
    split
    · rename_i none; exact ⟨none, fun _ h => .inl h⟩
    · rw [if_pos (by rw [abandoned]; rfl)]
      obtain ⟨done, items⟩ := ih (f.decideNext .abandoned []) (Bool.or_true _) (Nat.sub_le_iff_le_add.mpr fuel)
      refine ⟨done, fun i hi => ?_⟩
      obtain old | status := items i hi
      · obtain old | new := List.mem_append.mp old
        · exact .inl old
        · rw [List.mem_singleton.mp new]; exact .inr rfl
      · exact .inr status

/-- An overrun abandons its command and every later one (R158). -/
theorem walk_of_overrun {n : Nat} {f : InService} (left : f.remaining ≠ 0) (overrun : f.overrun = true)
    (fuel : f.remaining ≤ n + 1) : (InService.walk (n + 1) f).remaining = 0 ∧
      ∀ i ∈ (InService.walk (n + 1) f).items, i ∈ f.items ∨ i.status = 0x08 := by
  rw [walk_succ, if_neg left, if_pos (by rw [overrun]; exact Bool.or_true _)]
  obtain ⟨done, items⟩ := walk_of_abandoned n (f.decideNext .abandoned []) (Bool.or_true _) (Nat.sub_le_iff_le_add.mpr fuel)
  refine ⟨done, fun i hi => ?_⟩
  obtain old | status := items i hi
  · obtain old | new := List.mem_append.mp old
    · exact .inl old
    · rw [List.mem_singleton.mp new]; exact .inr rfl
  · exact .inr status

/-- What the walk over commands that are not executed leaves: every command has its item or remains, no result space is
taken, and where commands remain the first is one to execute and those before it were of no defined code. -/
structure InService.Walked (f w : InService) : Prop where
  count : w.items.length + w.remaining = f.items.length + f.remaining
  space : w.space = f.space
  status : ∀ i ∈ w.items, i ∈ f.items ∨ i.results = [] ∧ (i.status = 0x06 ∨ i.status = 0x08)
  waits : 0 < w.remaining → w.next.isSome = true ∧ ∀ i ∈ w.items, i ∈ f.items ∨ i.status = 0x06

theorem InService.Walked.refl {f : InService} (waits : 0 < f.remaining → f.next.isSome = true) : f.Walked f where
  count := rfl
  space := rfl
  status _ h := .inl h
  waits left := ⟨waits left, fun _ h => .inl h⟩

/-- One command is passed over, and the walk goes on behind it. -/
theorem InService.Walked.passed {f w : InService} {status : Status} (left : f.remaining ≠ 0)
    (h : (f.decideNext status []).Walked w) (code : status.code = 0x06 ∨ status.code = 0x08)
    (waits : 0 < w.remaining → status.code = 0x06) : f.Walked w where
  count := by
    have := h.count
    simp only [decideNext_items, List.length_append, List.length_cons, List.length_nil, decideNext_remaining] at this
    omega
  space := h.space
  status i hi := by
    obtain old | new := h.status i hi
    · obtain old | new := List.mem_append.mp old
      · exact .inl old
      · rw [List.mem_singleton.mp new]; exact .inr ⟨rfl, code⟩
    · exact .inr new
  waits more := by
    obtain ⟨next, items⟩ := h.waits more
    refine ⟨next, fun i hi => ?_⟩
    obtain old | new := items i hi
    · obtain old | new := List.mem_append.mp old
      · exact .inl old
      · rw [List.mem_singleton.mp new]; exact .inr (waits more)
    · exact .inr new

theorem walked_walk (n : Nat) : ∀ f : InService, f.remaining ≤ n → f.Walked (InService.walk n f) := by
  induction n with
  | zero => exact fun f fuel => .refl fun left => absurd fuel (Nat.not_le.mpr left)
  | succ n ih =>
    intro f fuel
    have later : ∀ st : Status, (f.decideNext st []).remaining ≤ n := fun _ => Nat.sub_le_iff_le_add.mpr fuel
    rw [walk_succ]
    split
    · rename_i none; exact .refl fun left => absurd none (Nat.pos_iff_ne_zero.mp left)
    · rename_i left
      split
      · have done := (walk_of_abandoned n (f.decideNext .abandoned []) (Bool.or_true _) (later .abandoned)).1
        exact (ih _ (later .abandoned)).passed left (.inr rfl) fun more => absurd done (Nat.pos_iff_ne_zero.mp more)
      · rename_i goes
        rw [Bool.or_eq_true, not_or] at goes
        split
        · rename_i defined
          refine .refl fun _ => ?_
          rw [InService.next, if_neg (by simp [left, goes.1, goes.2, defined])]
          rfl
        · exact (ih _ (later .unknown)).passed left (.inl rfl) fun _ => rfl

/-- A command of the command set that is no overrun stops the walk. -/
theorem walk_of_defined {n : Nat} {f : InService} (goes : f.abandoned = false) (within : f.overrun = false)
    (defined : f.codeByte ∈ commandSet) : InService.walk n f = f := by
  cases n with
  | zero => rfl
  | succ n =>
    rw [walk_succ, goes, within, if_pos defined, Bool.or_false, if_neg Bool.false_ne_true, ite_self]

/-- A command of no defined code gets its UNKNOWN item at its place in the response. -/
theorem items_walk_of_unknown {n : Nat} {f : InService} (left : f.remaining ≠ 0) (goes : f.abandoned = false)
    (within : f.overrun = false) (unknown : f.codeByte ∉ commandSet) :
    ∃ more, (InService.walk (n + 1) f).items = f.items ++ f.passedOver .unknown :: more := by
  rw [walk_succ, if_neg left, goes, within, Bool.or_false, if_neg Bool.false_ne_true, if_neg unknown]
  obtain ⟨-, -, -, more, items⟩ := walk_keeps n (f.decideNext .unknown [])
  exact ⟨more, by rw [items]; simp [InService.passedOver]⟩

theorem overrun_eq_true_iff (f : InService) : f.overrun = true ↔ f.payload.length < f.position + 2 ∨
    250 < f.paramLength ∨ f.payload.length < f.position + 2 + f.paramLength := by
  simp only [InService.overrun, Bool.or_eq_true, decide_eq_true_eq, or_assoc]
  exact Iff.rfl

/-! ### The frame the engine opens -/

/-- The frame in service as it is opened, in the numbers of the manual. -/
theorem openService_eq (l : LaneId) (f : Frame) : openService l f =
    ⟨l, f, controlPayload f, 6, byteAt (controlPayload f) 4, [], 1500 - 6 - 4 * byteAt (controlPayload f) 4, false⟩ := rfl

theorem codeByte_openService (l : LaneId) (f : Frame) :
    (openService l f).codeByte = (controlPayload f)[6]?.getD 0 := by
  rw [InService.codeByte, List.headD_eq_head?_getD, List.head?_drop]
  rfl

theorem isMalformed_iff (payload : List Byte) : isMalformed payload = true ↔ payload.length < 6 ∨ 1500 < payload.length ∨
    byteAt payload 0 ≠ 1 ∨ byteAt payload 4 = 0 ∨ 32 < byteAt payload 4 := by
  simp only [isMalformed, Bool.or_eq_true, decide_eq_true_eq, or_assoc]
  exact Iff.rfl

theorem controlPayload_of_etherHeader {f : Frame} {h : EtherHeader} (e : etherHeader f = some h) :
    controlPayload f = (f.take (f.length - 4)).drop h.netAt := by
  rw [controlPayload, e]
  rfl

/-- What the engine makes of the frame it takes up (R157 to R161). -/
theorem takesUp_spec (etherType : Nat) (addr : BitVec 4) (l : LaneId) (f : Frame) : ∃ w : InService,
    w = InService.walk (byteAt (controlPayload f) 4) (openService l f) ∧ takesUp etherType addr l f =
      if w.remaining = 0 then .handOver l (w.response etherType addr) else .executing w := ⟨_, rfl, rfl⟩

/-! ### Acceptance -/

theorem receiveControl_of_malformed {s : State} {f : Frame} (l : LaneId) (h : isMalformed (controlPayload f) = true) :
    s.receiveControl l f = State.latchEvent
      { s with control := { s.control with malformed := bump s.control.malformed } } .ctlDrop := if_pos h

theorem receiveControl_of_full {s : State} {f : Frame} (l : LaneId) (h : isMalformed (controlPayload f) = false)
    (full : 4 ≤ s.control.fifo.length) : s.receiveControl l f = State.latchEvent
      { s with control := { s.control with fifoFull := bump s.control.fifoFull } } .ctlDrop := by
  rw [State.receiveControl, if_neg (Bool.eq_false_iff.mp h)]
  exact if_neg (Nat.not_lt.mpr full)

theorem receiveControl_of_room {s : State} {f : Frame} (l : LaneId) (h : isMalformed (controlPayload f) = false)
    (room : s.control.fifo.length < 4) : s.receiveControl l f = State.takeFrame { s with
      control := { s.control with fifo := s.control.fifo ++ [(l, f)], accepted := bump s.control.accepted } } := by
  rw [State.receiveControl, if_neg (Bool.eq_false_iff.mp h)]
  exact if_pos room

/-- A control frame on a control-enabled lane goes to the control engine. -/
theorem exec_inbound_control {s : State} {l : LaneId} {f : Frame} (clocked : s.clocked = true) (good : goodFrame f)
    (enabled : controlEnabled s.straps.ctlsel l = true) (control : isControl s.control.etherType s.straps.addr f = true) :
    exec (.inboundArrival l f) s = .next (s.receiveControl l f) := by
  rw [exec_inbound clocked, inboundFrame_good good, enabled, control]
  rfl

/-- Settles O8: acceptance by the branches of `receiveControl`, and the opening by the walk to the first command. -/
theorem controlFrameIsConsumed : Obligations.ControlFrameIsConsumed := by
  unfold Obligations.ControlFrameIsConsumed
  refine ⟨fun l f s clocked good enabled control => ?_, fun f h => controlPayload_of_etherHeader, isMalformed_iff,
    fun etherType addr l f payload count len code hp hc hl hk => ?_⟩
  · rw [exec_inbound_control clocked good enabled control]
    refine ⟨fun bad => congrArg Host.Outcome.next (receiveControl_of_malformed l bad),
      fun sound full => congrArg Host.Outcome.next (receiveControl_of_full l sound full), fun sound room busy => ?_,
      fun sound empty idle => ⟨s.receiveControl l f, rfl, ?_⟩⟩
    · rw [receiveControl_of_room l sound room]
      exact congrArg Host.Outcome.next (takeFrame_of_busy (s := { s with
        control := { s.control with fifo := s.control.fifo ++ [(l, f)], accepted := bump s.control.accepted } }) busy)
    · rw [receiveControl_of_room l sound (by rw [empty]; decide), empty, List.nil_append, takeFrame_of_cons (s := { s with
        control := { s.control with fifo := [(l, f)], accepted := bump s.control.accepted } }) idle rfl]
      have hand := laneInHand_takesUp s.control.etherType s.straps.addr l f
      refine ⟨hand, fun isIdle => ?_, rfl, ?_⟩
      · rw [show takesUp s.control.etherType s.straps.addr l f = .idle from isIdle] at hand
        cases hand
      · rw [← empty, ← idle]
  · subst hp hc hl hk
    obtain ⟨w, hw, up⟩ := takesUp_spec etherType addr l f
    have walked : (openService l f).Walked w := hw ▸ walked_walk _ _ le_rfl
    obtain ⟨lane, frame, payload, -⟩ := walk_keeps (byteAt (controlPayload f) 4) (openService l f)
    rw [← hw] at lane frame payload
    have noItem : ∀ {i : ResponseItem} {p : Prop}, i ∈ (openService l f).items ∨ p → p := fun h =>
      h.resolve_left (fun m => nomatch m)
    refine ⟨w, up, lane, frame, payload, walked.space, ?_, fun i hi => noItem (walked.status i hi),
      fun left => ⟨(walked.waits left).1, fun i hi => noItem ((walked.waits left).2 i hi)⟩, fun left past => ?_,
      fun left fits short defined => ?_, fun left fits short unknown => ?_⟩
    · rw [walked.count, openService_eq]
      exact Nat.zero_add _
    · obtain ⟨n, hn⟩ := Nat.exists_eq_add_of_le' left
      obtain ⟨done, items⟩ := walk_of_overrun (n := n) (f := openService l f) (Nat.pos_iff_ne_zero.mp left)
        ((overrun_eq_true_iff _).mpr past) (le_of_eq hn)
      rw [hn] at hw
      exact hw ▸ ⟨done, fun i hi => noItem (items i hi)⟩
    all_goals
      have within : (openService l f).overrun = false := by
        rw [Bool.eq_false_iff, Ne, overrun_eq_true_iff]
        show ¬ ((controlPayload f).length < 6 + 2 ∨ 250 < byteAt (controlPayload f) 7 ∨
          (controlPayload f).length < 6 + 2 + byteAt (controlPayload f) 7)
        omega
    · rw [← codeByte_openService l f] at defined
      have stops : w = openService l f := hw.trans (walk_of_defined rfl within defined)
      refine ⟨stops, ?_⟩
      rw [stops, InService.next, if_neg, codeByte_openService]
      · rfl
      · rintro (none | abandoned | past | undefined)
        · exact absurd none (Nat.pos_iff_ne_zero.mp left)
        · cases abandoned
        · rw [within] at past; cases past
        · exact undefined defined
    · rw [← codeByte_openService l f] at unknown ⊢
      obtain ⟨n, hn⟩ := Nat.exists_eq_add_of_le' left
      obtain ⟨more, items⟩ := items_walk_of_unknown (n := n) (f := openService l f) (Nat.pos_iff_ne_zero.mp left) rfl
        within unknown
      rw [hw, hn, items]
      rfl

end Sys2Proof.Machine

/-! SUPPORT. Which frames are control frames and TCP segments, what a segment reports, and what becomes of the others (R4
to R12). -/

namespace Sys2Proof.Machine

/-! ### Bytes of a field -/

theorem byteAt_cons_zero (b : Byte) (bs : List Byte) : byteAt (b :: bs) 0 = b.toNat := by
  simp [byteAt, fieldAt, bytesAt, beNat]

theorem byteAt_cons_succ (b : Byte) (bs : List Byte) (n : Nat) : byteAt (b :: bs) (n + 1) = byteAt bs n := rfl

/-- A byte that is not 0 lies within the frame. -/
theorem lt_length_of_byteAt {bs : List Byte} {off : Nat} (h : byteAt bs off ≠ 0) : off < bs.length := by
  by_contra past
  refine h ?_
  rw [byteAt, fieldAt, bytesAt, List.drop_eq_nil_of_le (Nat.not_lt.mp past)]
  rfl

theorem byteAt_lt (bs : List Byte) (off : Nat) : byteAt bs off < 256 := fieldAt_lt bs off 1

theorem fieldAt_two {bs : List Byte} {off : Nat} (h : off + 1 < bs.length) :
    fieldAt bs off 2 = byteAt bs off * 256 + byteAt bs (off + 1) := by
  have two : bs.drop off = bs[off] :: bs[off + 1] :: bs.drop (off + 2) := by
    rw [List.drop_eq_getElem_cons (Nat.lt_of_succ_lt h), List.drop_eq_getElem_cons h]
  have one : bs.drop (off + 1) = bs[off + 1] :: bs.drop (off + 2) := List.drop_eq_getElem_cons h
  simp only [byteAt, fieldAt, bytesAt, two, one]
  simp only [List.take, beNat, List.foldl, Nat.zero_mul, Nat.zero_add]

/-! ### The EtherType -/

theorem isTpid_iff (v : Nat) : isTpid v = true ↔ v = 0x8100 ∨ v = 0x88A8 := by
  simp only [isTpid, Bool.or_eq_true, beq_iff_eq]

theorem etherFrom_zero_iff {f : Frame} {off : Nat} {h : EtherHeader} : etherFrom f 0 off = some h ↔
    off + 6 ≤ f.length ∧ ¬ (fieldAt f off 2 = 0x8100 ∨ fieldAt f off 2 = 0x88A8) ∧
      fieldAt f off 2 = h.etherType ∧ off + 2 = h.netAt := by
  obtain ⟨t, o⟩ := h
  rw [etherFrom, length_contentsOf]
  simp only [isTpid_iff]
  split
  · exact ⟨fun e => (nomatch e), fun e => by omega⟩
  · split
    · rename_i tag
      exact ⟨fun e => (nomatch e), fun e => absurd tag e.2.1⟩
    · rename_i len tag
      rw [Option.some.injEq, EtherHeader.mk.injEq]
      exact ⟨fun e => ⟨by omega, tag, e⟩, fun e => e.2.2⟩

theorem etherFrom_succ_iff {f : Frame} {n off : Nat} {h : EtherHeader} : etherFrom f (n + 1) off = some h ↔
    off + 6 ≤ f.length ∧ 0x0600 ≤ fieldAt f off 2 ∧
      ((fieldAt f off 2 = 0x8100 ∨ fieldAt f off 2 = 0x88A8) ∧ etherFrom f n (off + 4) = some h ∨
        ¬ (fieldAt f off 2 = 0x8100 ∨ fieldAt f off 2 = 0x88A8) ∧ fieldAt f off 2 = h.etherType ∧ off + 2 = h.netAt) := by
  rw [etherFrom, length_contentsOf]
  simp only [isTpid_iff]
  split
  · exact ⟨fun e => (nomatch e), fun e => by omega⟩
  · rename_i len
    split
    · exact ⟨fun e => (nomatch e), fun e => by omega⟩
    · rename_i type
      have size : off + 6 ≤ f.length ∧ 0x0600 ≤ fieldAt f off 2 := ⟨by omega, Nat.not_lt.mp type⟩
      rw [← and_assoc, and_iff_right size]
      split
      · rename_i tag
        exact ⟨fun e => .inl ⟨tag, e⟩, fun e => (e.resolve_right fun c => c.1 tag).2⟩
      · rename_i tag
        obtain ⟨t, o⟩ := h
        rw [Option.some.injEq, EtherHeader.mk.injEq]
        exact ⟨fun e => .inr ⟨tag, e⟩, fun e => (e.resolve_left fun c => tag c.1).2⟩

/-- The EtherType stands behind no, one or two tags (R4). -/
theorem etherHeader_iff (f : Frame) (h : EtherHeader) : etherHeader f = some h ↔
    h.etherType = fieldAt f (h.netAt - 2) 2 ∧ h.netAt + 4 ≤ f.length ∧ h.etherType ≠ 0x8100 ∧ h.etherType ≠ 0x88A8 ∧
      (h.netAt = 14 ∧ 0x0600 ≤ h.etherType ∨
        h.netAt = 18 ∧ fieldAt f 12 2 ∈ [0x8100, 0x88A8] ∧ 0x0600 ≤ h.etherType ∨
        h.netAt = 22 ∧ fieldAt f 12 2 ∈ [0x8100, 0x88A8] ∧ fieldAt f 16 2 ∈ [0x8100, 0x88A8]) := by
  obtain ⟨t, o⟩ := h
  simp only [etherHeader, etherFrom_succ_iff, etherFrom_zero_iff, List.mem_cons, List.not_mem_nil, or_false,
    Nat.reduceAdd]
  constructor
  · rintro ⟨len, least, ⟨tag, len', type', ⟨tag', len'', plain, rfl, rfl⟩ | ⟨plain, rfl, rfl⟩⟩ | ⟨plain, rfl, rfl⟩⟩
    · exact ⟨rfl, len'', (not_or.mp plain).1, (not_or.mp plain).2, .inr (.inr ⟨rfl, tag, tag'⟩)⟩
    · exact ⟨rfl, len', (not_or.mp plain).1, (not_or.mp plain).2, .inr (.inl ⟨rfl, tag, type'⟩)⟩
    · exact ⟨rfl, len, (not_or.mp plain).1, (not_or.mp plain).2, .inl ⟨rfl, least⟩⟩
  · have type : ∀ {v : Nat}, v = 0x8100 ∨ v = 0x88A8 → 0x0600 ≤ v := by omega
    rintro ⟨rfl, len, nc, ns, ⟨rfl, least⟩ | ⟨rfl, tag, least⟩ | ⟨rfl, tag, tag'⟩⟩
    · exact ⟨len, least, .inr ⟨not_or.mpr ⟨nc, ns⟩, rfl, rfl⟩⟩
    · exact ⟨by omega, type tag, .inl ⟨tag, len, least, .inr ⟨not_or.mpr ⟨nc, ns⟩, rfl, rfl⟩⟩⟩
    · exact ⟨by omega, type tag, .inl ⟨tag, by omega, type tag', .inl ⟨tag', len, not_or.mpr ⟨nc, ns⟩, rfl, rfl⟩⟩⟩

/-! ### Control frames -/

theorem isControl_iff (etherType : Nat) (addr : BitVec 4) (f : Frame) : isControl etherType addr f = true ↔
    ∃ h : EtherHeader, etherHeader f = some h ∧ h.etherType = etherType ∧
      (f.take 6 = [0x0A, 0x3C, 0x71, 0x2F, 0x50, BitVec.ofNat 8 addr.toNat] ∨
        f.take 6 = [0x0B, 0x3C, 0x71, 0x2F, 0x50, 0xFF]) := by
  unfold isControl
  split
  · rename_i h e
    simp only [e, Bool.and_eq_true, Bool.or_eq_true, beq_iff_eq, Option.some.injEq, exists_eq_left']
    exact Iff.rfl
  · rename_i e
    simp [e]

theorem controlEnabled_iff (ctlsel : BitVec 2) (l : LaneId) : controlEnabled ctlsel l = true ↔
    ctlsel = 0 ∧ l = 0 ∨ ctlsel = 1 ∧ (l = 0 ∨ l = 4) ∨ ctlsel = 2 := by
  revert ctlsel l
  decide

/-! ### TCP segments -/

/-- The DSCP of an IPv6 packet, from the two bytes its traffic class lies in (R8). -/
theorem dscp_ipv6 {f : Frame} {o : Nat} (next : byteAt f (o + 6) = 6) :
    fieldAt f o 2 / 64 % 64 = (byteAt f o % 16 * 16 + byteAt f (o + 1) / 16) / 4 := by
  have within := lt_length_of_byteAt (bs := f) (off := o + 6) (by omega)
  have low := byteAt_lt f (o + 1)
  rw [fieldAt_two (by omega)]
  omega

theorem parseIp_iff {f : Frame} {h : EtherHeader} {ip : IpPacket} : parseIp f h = some ip ↔
    (h.etherType = 0x0800 ∧ byteAt f h.netAt / 16 = 4 ∧ 20 ≤ byteAt f h.netAt % 16 * 4 ∧
      fieldAt f (h.netAt + 6) 2 % 0x4000 = 0 ∧ byteAt f (h.netAt + 9) = 6 ∧
      fieldAt f (h.netAt + 2) 2 ≤ f.length - 4 - h.netAt ∧
      byteAt f h.netAt % 16 * 4 + 20 ≤ fieldAt f (h.netAt + 2) 2 ∧
      ip = ⟨.v4, bytesAt f (h.netAt + 12) 4, bytesAt f (h.netAt + 16) 4, byteAt f (h.netAt + 1) / 4,
        h.netAt + byteAt f h.netAt % 16 * 4, fieldAt f (h.netAt + 2) 2 - byteAt f h.netAt % 16 * 4⟩) ∨
    (h.etherType = 0x86DD ∧ byteAt f h.netAt / 16 = 6 ∧ byteAt f (h.netAt + 6) = 6 ∧
      fieldAt f (h.netAt + 4) 2 ≤ f.length - 4 - h.netAt - 40 ∧ 20 ≤ fieldAt f (h.netAt + 4) 2 ∧
      ip = ⟨.v6, bytesAt f (h.netAt + 8) 16, bytesAt f (h.netAt + 24) 16, fieldAt f h.netAt 2 / 64 % 64, h.netAt + 40,
        fieldAt f (h.netAt + 4) 2⟩) := by
  unfold parseIp
  dsimp only
  rw [length_contentsOf]
  by_cases v4 : h.etherType = 0x0800
  · rw [if_pos v4, parseIpv4]
    simp only [v4, Option.ite_none_right_eq_some, Option.some.injEq, true_and, and_assoc, eq_comm (b := ip),
      Nat.reduceEqDiff, false_and, or_false]
  · rw [if_neg v4]
    by_cases v6 : h.etherType = 0x86DD
    · rw [if_pos v6, parseIpv6]
      simp only [v6, Option.ite_none_right_eq_some, Option.some.injEq, true_and, and_assoc, eq_comm (b := ip),
        Nat.reduceEqDiff, false_and, false_or]
    · simp only [v4, v6, if_false, false_and, or_false, reduceCtorEq]

/-- The segment of an IP packet whose TCP header has this length (R9, R12). -/
structure Segment.Reports (g : Segment) (d : Direction) (f : Frame) (ip : IpPacket) (tcpLen : Nat) : Prop where
  tcpAt : g.tcpAt = ip.payloadAt
  dscp : g.dscp = ip.dscp
  direction : g.direction = d
  payloadLen : g.payloadLen = ip.payloadLen - tcpLen
  key : g.key = orientedKey d ip (fieldAt f g.tcpAt 2) (fieldAt f (g.tcpAt + 2) 2)
  fin : g.fin = (byteAt f (g.tcpAt + 13)).testBit 0
  syn : g.syn = (byteAt f (g.tcpAt + 13)).testBit 1
  rst : g.rst = (byteAt f (g.tcpAt + 13)).testBit 2
  ack : g.ack = (byteAt f (g.tcpAt + 13)).testBit 4
  option : g.scaleOption = if g.syn then Machine.scaleOption (bytesAt f (g.tcpAt + 20) (tcpLen - 20)) else none

theorem getLsbD_byteAt (f : Frame) (off : Nat) {i : Nat} (h : i < 8) :
    (BitVec.ofNat 8 (byteAt f off)).getLsbD i = (byteAt f off).testBit i := by
  rw [BitVec.getLsbD_ofNat, decide_eq_true h, Bool.true_and]

theorem parseTcp_iff {d : Direction} {f : Frame} {ip : IpPacket} {g : Segment} : parseTcp d f ip = some g ↔
    20 ≤ byteAt f (ip.payloadAt + 12) / 16 * 4 ∧ byteAt f (ip.payloadAt + 12) / 16 * 4 ≤ ip.payloadLen ∧
      g.Reports d f ip (byteAt f (ip.payloadAt + 12) / 16 * 4) := by
  unfold parseTcp
  simp only [Option.ite_none_right_eq_some, Option.some.injEq, and_assoc, getLsbD_byteAt _ _ (show 0 < 8 by decide),
    getLsbD_byteAt _ _ (show 1 < 8 by decide), getLsbD_byteAt _ _ (show 2 < 8 by decide),
    getLsbD_byteAt _ _ (show 4 < 8 by decide)]
  refine and_congr_right fun _ => and_congr_right fun _ => ⟨?_, fun r => ?_⟩
  · rintro rfl
    exact ⟨rfl, rfl, rfl, rfl, rfl, rfl, rfl, rfl, rfl, rfl⟩
  · obtain ⟨tcpAt, dscp, direction, payloadLen, key, fin, syn, rst, ack, option⟩ := r
    cases g
    simp only at *
    subst tcpAt dscp direction payloadLen key fin syn rst ack option
    rfl

theorem segmentOf_iff {d : Direction} {f : Frame} {g : Segment} : segmentOf d f = some g ↔
    ∃ (h : EtherHeader) (ip : IpPacket), etherHeader f = some h ∧ parseIp f h = some ip ∧ parseTcp d f ip = some g := by
  refine ⟨segmentOf_eq_some, fun ⟨h, ip, eh, eip, eg⟩ => ?_⟩
  simp only [segmentOf, eh, eip, eg]

/-! ### TCP options -/

/-- A whole option is read in one step: kind 3 gives its shift where none was found before (R10). -/
theorem readOptions_whole {o : List Byte} (whole : wholeOption o) (n : Nat) (rest : List Byte) (found : Option Nat) :
    readOptions (n + 1) (o ++ rest) found =
      readOptions n rest (found <|> if byteAt o 0 = 3 then some (min 14 (byteAt o 2)) else none) := by
  obtain rfl | ⟨two, nonzero, nonone, len, three⟩ := whole
  · cases found <;> rfl
  · obtain ⟨kind, lenByte, body, rfl⟩ : ∃ (kind lenByte : Byte) (body : List Byte), o = kind :: lenByte :: body := by
      match o, two with
      | a :: b :: body, _ => exact ⟨a, b, body, rfl⟩
    rw [byteAt_cons_zero] at nonzero nonone three ⊢
    rw [byteAt_cons_succ, byteAt_cons_zero, List.length_cons, List.length_cons] at len
    have fits : ¬ (lenByte.toNat < 2 ∨ (body ++ rest).length < lenByte.toNat - 2) := by
      rw [List.length_append]; omega
    have kind0 : kind ≠ 0 := fun e => nonzero (by rw [e]; rfl)
    have kind1 : kind ≠ 1 := fun e => nonone (by rw [e]; rfl)
    simp only [List.cons_append, readOptions, if_neg kind0, if_neg kind1, if_neg fits]
    by_cases shift : kind = 3
    · have one : body.length = 1 := by
        have := three (by rw [shift]; rfl)
        simpa using this
      obtain ⟨b, rfl⟩ := List.length_eq_one_iff.mp one
      have lenThree : lenByte = 3 := BitVec.eq_of_toNat_eq (by rw [len]; rfl)
      subst shift lenThree
      simp [byteAt_cons_succ, byteAt_cons_zero, beNat]
    · have notThree : ¬ kind.toNat = 3 := fun e => shift (BitVec.eq_of_toNat_eq e)
      rw [if_neg shift, if_neg notThree, List.drop_left' (by omega)]
      cases found <;> rfl

/-- The first shift among whole options. -/
def firstShift (options : List (List Byte)) : Option Nat :=
  (options.find? fun o => byteAt o 0 = 3).map fun o => min 14 (byteAt o 2)

theorem firstShift_cons (o : List Byte) (options : List (List Byte)) : firstShift (o :: options) =
    ((if byteAt o 0 = 3 then some (min 14 (byteAt o 2)) else none) <|> firstShift options) := by
  rw [firstShift, List.find?_cons]
  by_cases h : byteAt o 0 = 3 <;> simp [h, firstShift]

/-- Whole options are read to the rest of the list, with at least as many steps left as bytes. -/
theorem readOptions_wholes (tail : List Byte) : ∀ (options : List (List Byte)), (∀ o ∈ options, wholeOption o) →
    ∀ (fuel : Nat) (found : Option Nat), (options.flatten ++ tail).length ≤ fuel →
      ∃ left, tail.length ≤ left ∧
        readOptions fuel (options.flatten ++ tail) found = readOptions left tail (found <|> firstShift options) := by
  intro options
  induction options with
  | nil => exact fun _ fuel found len => ⟨fuel, len, by cases found <;> rfl⟩
  | cons o options ih =>
    intro whole fuel found len
    have first := whole o List.mem_cons_self
    have one : 1 ≤ o.length := by
      obtain rfl | h := first
      · exact le_rfl
      · exact Nat.le_of_lt h.1
    rw [List.flatten_cons, List.append_assoc] at len ⊢
    rw [List.length_append] at len
    obtain ⟨n, rfl⟩ := Nat.exists_eq_add_of_le' (Nat.le_trans one (by omega : o.length ≤ fuel))
    obtain ⟨left, enough, read⟩ := ih (fun o' h => whole o' (List.mem_cons_of_mem o h)) n
      (found <|> if byteAt o 0 = 3 then some (min 14 (byteAt o 2)) else none) (by omega)
    refine ⟨left, enough, ?_⟩
    rw [readOptions_whole first, read, firstShift_cons]
    cases found <;> rfl

/-- The list ends, or an end-of-list option ends it. -/
theorem readOptions_of_ended {tail : List Byte} (ended : tail = [] ∨ byteAt tail 0 = 0) (n : Nat) (found : Option Nat) :
    readOptions n tail found = some found := by
  cases n with
  | zero => rfl
  | succ n =>
    cases tail with
    | nil => rfl
    | cons kind rest =>
      have zero := ended.resolve_left (List.cons_ne_nil _ _)
      rw [byteAt_cons_zero] at zero
      exact if_pos (BitVec.eq_of_toNat_eq zero)

/-- A malformed option makes the list malformed. -/
theorem readOptions_of_broken {tail : List Byte} (broken : brokenOption tail) {n : Nat} (fuel : tail.length ≤ n)
    (found : Option Nat) : readOptions n tail found = none := by
  obtain ⟨some, nonzero, nonone, why⟩ := broken
  obtain ⟨n, rfl⟩ := Nat.exists_eq_add_of_le' (Nat.le_trans some fuel)
  match tail with
  | kind :: rest =>
    rw [byteAt_cons_zero] at nonzero nonone why
    have kind0 : kind ≠ 0 := fun e => nonzero (by rw [e]; rfl)
    have kind1 : kind ≠ 1 := fun e => nonone (by rw [e]; rfl)
    simp only [readOptions, if_neg kind0, if_neg kind1]
    match rest with
    | [] => rfl
    | len :: body =>
      rw [byteAt_cons_succ, byteAt_cons_zero, List.length_cons, List.length_cons] at why
      dsimp only
      split
      · rfl
      · rename_i fits
        obtain ⟨three, notThree⟩ : kind.toNat = 3 ∧ len.toNat ≠ 3 := by omega
        rw [if_pos (BitVec.eq_of_toNat_eq three), if_neg fun e => notThree (by rw [e]; rfl)]

/-! ### The obligation -/

/-- Settles O7: the lane path's last two tests, and what the recognizers of R4 to R12 accept. -/
theorem opaqueAndStationControlFrames : Obligations.OpaqueAndStationControlFrames := by
  unfold Obligations.OpaqueAndStationControlFrames
  refine ⟨fun l f s clocked good other none => ?_, fun l f s clocked good other none => ?_,
    fun l f s clocked good control => ?_, etherHeader_iff, isControl_iff, controlEnabled_iff, fun d f g => ⟨?_, ?_⟩,
    fun options tail whole => ?_⟩
  · rw [exec_inbound clocked, inboundFrame_good good, other, none]
    rfl
  · rw [exec_outbound clocked, outboundFrame_good good, other, none]
    rfl
  · rw [exec_outbound clocked, outboundFrame_good good, if_pos control]
  · intro e
    obtain ⟨h, ip, header, packet, tcp⟩ := segmentOf_iff.mp e
    obtain ⟨least, most, r⟩ := parseTcp_iff.mp tcp
    have key := r.key
    refine ⟨h, ip.version, ip.srcAddr, ip.dstAddr, h.netAt, _, _, _, ip.payloadLen, _, header, rfl, rfl, rfl, rfl, ?_,
      by rw [r.tcpAt], least, most, r.direction, r.payloadLen, by cases d <;> exact key, r.fin, r.syn, r.rst, r.ack,
      r.option⟩
    have at' := r.tcpAt
    have dscp := r.dscp
    obtain ⟨type, version, ihl, frag, proto, total, room, rfl⟩ | ⟨type, version, next, room, long, rfl⟩ :=
      parseIp_iff.mp packet
    · exact .inl ⟨type, rfl, version, ihl, frag, proto, total, room, rfl, rfl, dscp, at', rfl⟩
    · exact .inr ⟨type, rfl, version, next, rfl, room, long, rfl, rfl, dscp.trans (dscp_ipv6 next), at'⟩
  · rintro ⟨h, v, src, dst, o, present, ihl, total, len, tcpLen, header, rfl, rfl, rfl, rfl, packet, rfl, least, most,
      direction, payloadLen, key, fin, syn, rst, ack, option⟩
    have tcp : ∀ ip : IpPacket, ip.version = v → ip.srcAddr = src → ip.dstAddr = dst → ip.dscp = g.dscp →
        ip.payloadAt = g.tcpAt → ip.payloadLen = len → parseTcp d f ip = some g := by
      rintro ip rfl rfl rfl dscp at' rfl
      rw [parseTcp_iff, at']
      exact ⟨least, most, at'.symm, dscp.symm, direction, payloadLen, by cases d <;> exact key, fin, syn, rst, ack, option⟩
    rw [segmentOf_iff]
    obtain ⟨type, rfl, version, ihl, frag, proto, total, room, rfl, rfl, dscp, at', rfl⟩ |
      ⟨type, rfl, version, next, rfl, room, long, rfl, rfl, dscp, at'⟩ := packet
    · exact ⟨h, _, header, parseIp_iff.mpr (.inl ⟨type, version, ihl, frag, proto, total, room, rfl⟩),
        tcp _ rfl rfl rfl dscp.symm at'.symm rfl⟩
    · exact ⟨h, _, header, parseIp_iff.mpr (.inr ⟨type, version, next, room, long, rfl⟩),
        tcp _ rfl rfl rfl ((dscp_ipv6 next).trans dscp.symm) at'.symm rfl⟩
  · obtain ⟨left, enough, read⟩ := readOptions_wholes tail options whole _ none le_rfl
    refine ⟨fun ended => ?_, fun broken => ?_⟩
    · rw [scaleOption, read, readOptions_of_ended ended]
      rfl
    · rw [scaleOption, read, readOptions_of_broken broken enough]
      rfl

end Sys2Proof.Machine

/-! SUPPORT. What releases do, said once: the frames at a lane's arbiter, the records of a lane through a charge, a
recompute and the rewriter, and the frame as it leaves (R14, R16, R57, R58, R64, R106, R107, R122). -/

namespace Sys2Proof.Machine

/-! ### The frames at the arbiter -/

theorem outgoing_makeReady (s : State) (l : LaneId) (f : Frame) :
    (s.makeReady l f).outgoing l = s.outgoing l ++ [f] := by
  have frames := makeReady_frames s l f
  simp only [State.outgoing, State.makeReady_fabricSent, List.append_assoc] at frames ⊢
  rw [frames]

theorem outgoing_of_accounted {s t : State} {l : LaneId} (a : (s.lane l).Accounted (t.lane l)) (event : s.LaneEvent l t) :
    t.outgoing l = s.outgoing l := by
  have sent : t.fabricSent = s.fabricSent := (congrArg State.fabricSent event.rest :)
  rw [State.outgoing, State.outgoing, sent, a.output, a.response, a.ready]

/-- The hand-on of a lane that is not in ACTIVE re-evaluates nothing. -/
theorem handOn_of_not_active {s : State} {l : LaneId} (h : (s.lane l).mode ≠ .active) (before : State) :
    s.handOn l before = s.afterActiveSet l before := by
  have still : ¬ ((s.afterActiveSet l before).lane l).mode = .active := by
    rw [(accounted_afterActiveSet s l before).mode]; exact h
  unfold State.handOn
  dsimp only
  split
  · rw [State.reevaluate, if_neg still]
  · rfl

/-- A lane that does not enforce makes an arriving frame ready as it is; a request start is charged before (R104). -/
theorem gateArrival_of_not_enforcing {s : State} {l : LaneId} (h : (s.lane l).mode.enforcing = false) (g : Segment)
    (f : Frame) (start : Bool) (d : ClassDecision) : ∃ v : State, (s.lane l).Accounted (v.lane l) ∧ s.LaneEvent l v ∧
      s.gateArrival l g f start d = v.makeReady l f := by
  have idle : ¬ (s.lane l).mode = .active := fun e => by rw [e] at h; cases h
  have passes : ∀ v : State, (s.lane l).Accounted (v.lane l) → v.passOut l f = v.makeReady l f := by
    intro v a
    rw [State.passOut, a.mode, h]
    exact if_neg Bool.false_ne_true
  unfold State.gateArrival
  rw [h, Bool.false_and, if_neg Bool.false_ne_true]
  split
  · rw [if_neg fun c => idle c.1]
    exact ⟨_, accounted_charge s l g.key d, laneEvent_charge s l g.key d, passes _ (accounted_charge s l g.key d)⟩
  · exact ⟨s, .refl _, .refl l s, passes s (.refl _)⟩

/-- Settles O17: the lane's stages leave its queue and its arbiter alone, and the frame is made ready as it is. -/
theorem unenforcedLanePassesUnchanged : Obligations.UnenforcedLanePassesUnchanged := by
  unfold Obligations.UnenforcedLanePassesUnchanged
  intro l f g s clocked tcp mode queue
  have passed : ∀ v : State, (s.lane l).Accounted (v.lane l) → s.LaneEvent l v →
      (v.makeReady l f).framesOf l = s.framesOf l ++ [f] ∧ ((v.makeReady l f).lane l).queue = [] ∧
        ((v.makeReady l f).lane l).mode = (s.lane l).mode := by
    intro v a event
    obtain ⟨hq, hm⟩ := makeReady_queue v l f
    have empty : ((v.makeReady l f).lane l).queue = [] := hq.trans (a.queue.trans queue)
    refine ⟨?_, empty, hm.trans a.mode⟩
    rw [State.framesOf, State.framesOf, empty, queue, outgoing_makeReady, outgoing_of_accounted a event]
    simp
  rw [exec_outbound clocked, outboundFrame_tcp tcp, State.outboundSegment]
  by_cases track : (s.lane l).mode.tracking = true
  · rw [if_pos track]
    dsimp only
    have report := accounted_reportSegment s l g
    have idle : ¬ ((s.reportSegment l g).lane l).mode = .active := fun e => by
      rw [report.mode] at e; rw [e] at mode; cases mode
    rw [handOn_of_not_active idle]
    have a := report.trans (accounted_afterActiveSet (s.reportSegment l g) l s)
    obtain ⟨v, av, event, e⟩ := gateArrival_of_not_enforcing (s := (s.reportSegment l g).afterActiveSet l s)
      (by rw [a.mode]; exact mode) g f ((s.reportSegment l g).requestStart l g (s.lookup l g)) (s.lookup l g)
    obtain ⟨frames, empty, hm⟩ := passed v (a.trans av)
      (((laneEvent_reportSegment s l g).trans (laneEvent_afterActiveSet _ l s)).trans event)
    rw [e]
    exact ⟨_, rfl, frames, empty, hm, fun still => by rw [track] at still; cases still⟩
  · rw [if_neg track]
    obtain ⟨frames, empty, hm⟩ := passed s (.refl _) (.refl l s)
    exact ⟨_, rfl, frames, empty, hm, fun _ => rfl⟩

/-! ### Finding records -/

theorem findRecord_congr {s t : State} (h : t.pool = s.pool) (l : LaneId) (key : FlowKey) :
    t.findRecord l key = s.findRecord l key := by
  rw [State.findRecord, h]
  rfl

theorem findRecord_key {s : State} {l : LaneId} {key : FlowKey} {r : FlowRecord} (h : s.findRecord l key = some r) :
    r.lane = l ∧ r.key = key := by
  have := List.find?_some h
  simpa using this

/-- A map that keeps every record's lane and key finds what it makes of the record found before. -/
theorem findRecord_map {s t : State} {f : FlowRecord → FlowRecord} (pool : t.pool = s.pool.map f)
    (same : ∀ r : FlowRecord, (f r).lane = r.lane ∧ (f r).key = r.key) (l : LaneId) (key : FlowKey) :
    t.findRecord l key = (s.findRecord l key).map f := by
  rw [State.findRecord, pool, List.find?_map, State.findRecord]
  congr 2
  funext r
  simp only [Function.comp_apply, (same r).1, (same r).2]

theorem findRecord_modRecord (s : State) (l : LaneId) (key key' : FlowKey) {f : FlowRecord → FlowRecord}
    (same : ∀ r : FlowRecord, (f r).lane = r.lane ∧ (f r).key = r.key) :
    (s.modRecord l key f).findRecord l key' =
      (s.findRecord l key').map fun r => if key = key' then f r else r := by
  rw [findRecord_map (f := fun r => if r.lane = l ∧ r.key = key then f r else r) rfl
    (fun r => by split; exacts [same r, ⟨rfl, rfl⟩])]
  refine Option.map_congr fun r h => ?_
  obtain ⟨hl, hk⟩ := findRecord_key h
  simp only [hl, hk, true_and, eq_comm (a := key')]

theorem modRecord_of_none {s : State} {l : LaneId} {key : FlowKey} (h : s.findRecord l key = none)
    (f : FlowRecord → FlowRecord) : s.modRecord l key f = s := by
  have stands : (s.pool.map fun r => if r.lane = l ∧ r.key = key then f r else r) = s.pool :=
    (List.map_congr_left fun r hr => if_neg (fresh_of_findRecord_none h r hr)).trans (List.map_id' _)
  rw [State.modRecord, stands]

/-- A find over a pool with a record inserted: the record where it is the one looked for and there was none. -/
theorem find?_insertRecord (p : FlowRecord → Bool) (x : FlowRecord) (pool : List FlowRecord) :
    (p x = false → (insertRecord x pool).find? p = pool.find? p) ∧
      (p x = true → pool.find? p = none → (insertRecord x pool).find? p = some x) := by
  induction pool with
  | nil => exact ⟨fun h => by simp [insertRecord, h], fun h _ => by simp [insertRecord, h]⟩
  | cons r rest ih =>
    unfold insertRecord
    split
    · exact ⟨fun h => by rw [List.find?_cons_of_neg (by simp [h])], fun h _ => List.find?_cons_of_pos h⟩
    · cases hr : p r with
      | true => simp [hr]
      | false => simpa [hr] using ih

/-- With a record inserted of a connection that had none, that record is found for it. -/
theorem findRecord_insertRecord {s : State} {l : LaneId} {key : FlowKey} {x : FlowRecord} (place : x.lane = l ∧ x.key = key)
    (absent : s.findRecord l key = none) (key' : FlowKey) :
    State.findRecord { s with pool := insertRecord x s.pool } l key' =
      if key = key' then some x else s.findRecord l key' := by
  obtain ⟨miss, hit⟩ := find?_insertRecord (fun r => decide (r.lane = l ∧ r.key = key')) x s.pool
  split
  · rename_i same
    exact hit (decide_eq_true (same ▸ place)) (same ▸ absent)
  · rename_i other
    exact miss (decide_eq_false fun h => other (place.2.symm.trans h.2))

theorem hasRoom_congr {s t : State} {l : LaneId} (count : t.recordCount l = s.recordCount l)
    (length : t.pool.length = s.pool.length) (params : (t.lane l).params = (s.lane l).params) :
    t.hasRoom l = s.hasRoom l := by
  rw [State.hasRoom, count, length, params]
  rfl

theorem exists_slot_of_lt_lowestFree (pool : List FlowRecord) : ∀ m n : Nat, m ≤ n → n < lowestFree m pool →
    ∃ x ∈ pool, x.slot = n := by
  induction pool with
  | nil => exact fun m n ge lt => absurd lt (Nat.not_lt.mpr ge)
  | cons r rest ih =>
    intro m n ge lt
    unfold lowestFree at lt
    split at lt
    · rename_i slot
      obtain rfl | gt := Nat.eq_or_lt_of_le ge
      · exact ⟨r, List.mem_cons_self, slot⟩
      · obtain ⟨x, hx, e⟩ := ih (m + 1) n gt lt
        exact ⟨x, List.mem_cons_of_mem _ hx, e⟩
    · exact absurd lt (Nat.not_lt.mpr ge)

/-! ### Events that release nothing -/

/-- The slot, lane and key of every record. -/
def State.places (s : State) : List (Nat × LaneId × FlowKey) := s.pool.map fun r => (r.slot, r.lane, r.key)

/-- An event that keeps every record of a lane in all but seen, its grant and its last edge, makes and removes none, and
counts nothing UNTRACKED. -/
structure State.KeepsRecords (l : LaneId) (s t : State) : Prop where
  found : ∀ (key : FlowKey) (r : FlowRecord), s.findRecord l key = some r → ∃ r' : FlowRecord,
    t.findRecord l key = some r' ∧ { r' with seen := r.seen, grant := r.grant, lastEdge := r.lastEdge } = r ∧
      (r.seen = true → r'.seen = true) ∧ (r.scale = none → r'.lastEdge = r.lastEdge)
  absent : ∀ key : FlowKey, s.findRecord l key = none → t.findRecord l key = none
  places : t.places = s.places
  params : (t.lane l).params = (s.lane l).params
  untracked : (t.lane l).counters.untracked = (s.lane l).counters.untracked

theorem State.KeepsRecords.of_pool {s t : State} {l : LaneId} (pool : t.pool = s.pool)
    (params : (t.lane l).params = (s.lane l).params)
    (untracked : (t.lane l).counters.untracked = (s.lane l).counters.untracked) : s.KeepsRecords l t where
  found key r h := ⟨r, (findRecord_congr pool l key).trans h, rfl, id, fun _ => rfl⟩
  absent key h := (findRecord_congr pool l key).trans h
  places := by rw [State.places, pool]; rfl
  params := params
  untracked := untracked

theorem State.KeepsRecords.refl (l : LaneId) (s : State) : s.KeepsRecords l s := .of_pool rfl rfl rfl

theorem State.KeepsRecords.trans {s t u : State} {l : LaneId} (h : s.KeepsRecords l t) (h' : t.KeepsRecords l u) :
    s.KeepsRecords l u where
  found key r hr := by
    obtain ⟨r1, e1, c1, s1, l1⟩ := h.found key r hr
    obtain ⟨r2, e2, c2, s2, l2⟩ := h'.found key r1 e1
    have scale : r1.scale = r.scale := (congrArg FlowRecord.scale c1 :)
    refine ⟨r2, e2, ?_, s2 ∘ s1, fun hn => (l2 (scale.trans hn)).trans (l1 hn)⟩
    rw [← c1, ← c2]
  absent key hk := h'.absent key (h.absent key hk)
  places := h'.places.trans h.places
  params := h'.params.trans h.params
  untracked := h'.untracked.trans h.untracked

theorem recordCount_of_places {s t : State} (h : t.places = s.places) (l : LaneId) :
    t.recordCount l = s.recordCount l := by
  have count : ∀ u : State, u.recordCount l = (u.places.filter fun x => x.2.1 = l).length := by
    intro u
    rw [State.places, List.filter_map, List.length_map]
    rfl
  rw [count, count, h]

theorem length_of_places {s t : State} (h : t.places = s.places) : t.pool.length = s.pool.length := by
  simpa only [State.places, List.length_map] using congrArg List.length h

/-- Every record has one in its slot, of its lane and key. -/
theorem stands_of_places {s t : State} (h : t.places = s.places) {x : FlowRecord} (hx : x ∈ s.pool) :
    ∃ x' ∈ t.pool, x'.slot = x.slot ∧ x'.lane = x.lane ∧ x'.key = x.key := by
  have place : (x.slot, x.lane, x.key) ∈ t.places := by rw [h]; exact List.mem_map_of_mem hx
  obtain ⟨x', hx', e⟩ := List.mem_map.mp place
  obtain ⟨slot, e⟩ := Prod.mk.inj e
  exact ⟨x', hx', slot, Prod.mk.inj e⟩

/-- A map of the pool that keeps slots, lanes and keys. -/
theorem places_map {s t : State} {f : FlowRecord → FlowRecord} (pool : t.pool = s.pool.map f)
    (same : ∀ r : FlowRecord, (f r).slot = r.slot ∧ (f r).lane = r.lane ∧ (f r).key = r.key) : t.places = s.places := by
  rw [State.places, pool, List.map_map]
  refine List.map_congr_left fun r _ => ?_
  simp only [Function.comp_apply, same r]

theorem hasRoom_of_places {s t : State} {l : LaneId} (h : t.places = s.places)
    (params : (t.lane l).params = (s.lane l).params) : t.hasRoom l = s.hasRoom l :=
  hasRoom_congr (recordCount_of_places h l) (length_of_places h) params

/-- A map of the pool that keeps its records in all but seen, grants and last edges. -/
theorem State.KeepsRecords.of_map {s t : State} {l : LaneId} {f : FlowRecord → FlowRecord} (pool : t.pool = s.pool.map f)
    (same : ∀ r : FlowRecord, (f r).slot = r.slot ∧ (f r).lane = r.lane ∧ (f r).key = r.key)
    (found : ∀ (key : FlowKey) (r : FlowRecord), s.findRecord l key = some r →
      { f r with seen := r.seen, grant := r.grant, lastEdge := r.lastEdge } = r ∧
        (r.seen = true → (f r).seen = true) ∧ (r.scale = none → (f r).lastEdge = r.lastEdge))
    (params : (t.lane l).params = (s.lane l).params)
    (untracked : (t.lane l).counters.untracked = (s.lane l).counters.untracked) : s.KeepsRecords l t where
  found key r h := ⟨f r, by rw [findRecord_map pool (fun r => (same r).2), h]; rfl, found key r h⟩
  absent key h := by rw [findRecord_map pool (fun r => (same r).2), h]; rfl
  places := places_map pool same
  params := params
  untracked := untracked

theorem State.KeepsRecords.hasRoom {s t : State} {l : LaneId} (h : s.KeepsRecords l t) : t.hasRoom l = s.hasRoom l :=
  hasRoom_of_places h.places h.params

/-- What keeps the records and the frames at the arbiter releases nothing. -/
theorem State.KeepsRecords.released_nil {s t : State} {l : LaneId} (h : s.KeepsRecords l t)
    (out : t.outgoing l = s.outgoing l) : s.Released l [] t where
  frames := ⟨[], .nil, out.trans (List.append_nil _).symm⟩
  charged key r hr := by
    obtain ⟨r', e, same, seen, edge⟩ := h.found key r hr
    refine ⟨r', e, ?_, fun c => c.elim seen fun c => absurd rfl c, edge⟩
    rw [same]
    simp [chargesTo]
  uncharged key hk _ := h.absent key hk
  made _ _ _ _ hm := nomatch hm
  order _ _ _ hs := by simp at hs
  untracked := h.untracked
  stands _ := stands_of_places h.places
  roomless room := h.hasRoom.trans room

/-! ### What keeps the records -/

theorem keepsRecords_makeReady (s : State) (l : LaneId) (f : Frame) : s.KeepsRecords l (s.makeReady l f) :=
  .of_pool rfl (by rw [lane_makeReady_same]; exact startReady_params _)
    (by rw [lane_makeReady_same, LaneState.addReady, startReady_counters])

/-- Frames made ready before and after change nothing of it. -/
theorem State.KeepsRecords.makeReady {s t : State} {l : LaneId} (h : s.KeepsRecords l t) (f : Frame) :
    (s.makeReady l f).KeepsRecords l (t.makeReady l f) := by
  have before : (s.makeReady l f).KeepsRecords l s := .of_pool rfl (keepsRecords_makeReady s l f).params.symm
    (keepsRecords_makeReady s l f).untracked.symm
  exact (before.trans h).trans (keepsRecords_makeReady t l f)

theorem keepsRecords_recompute (s : State) (l : LaneId) : s.KeepsRecords l (s.recompute l) := by
  refine .of_map (State.pool_latchOverload _ l) (fun r => ?_) (fun key r _ => ?_) ?_ ?_
  · split <;> exact ⟨rfl, rfl, rfl⟩
  · split <;> exact ⟨rfl, id, fun _ => rfl⟩
  · rw [recompute_lane]
  · rw [recompute_lane]

theorem keepsRecords_afterActiveSet (s : State) (l : LaneId) (before : State) :
    s.KeepsRecords l (s.afterActiveSet l before) := by
  unfold State.afterActiveSet
  split
  · exact keepsRecords_recompute s l
  · exact .refl l s

/-- Counting what is not UNTRACKED keeps the records. -/
theorem keepsRecords_countLane (s : State) (l : LaneId) {c : LaneCounter} (h : c ≠ .untracked) :
    s.KeepsRecords l (s.countLane l c) := by
  refine .of_pool rfl (accounted_countLane s l c).params ?_
  rw [State.lane_countLane_same]
  cases c
  case untracked => exact absurd rfl h
  all_goals rfl

theorem keepsRecords_setEdge {s : State} {l : LaneId} {key : FlowKey} {r : FlowRecord} (h : s.findRecord l key = some r)
    (scale : r.scale ≠ none) (edge : SeqNum) : s.KeepsRecords l (s.setEdge l key edge) := by
  refine .of_map rfl (fun r => ?_) (fun key' r' h' => ?_) rfl rfl
  · split <;> exact ⟨rfl, rfl, rfl⟩
  · split
    · rename_i same
      refine ⟨rfl, id, fun none => ?_⟩
      have : r' = r := Option.some.inj (h'.symm.trans (by rw [← (findRecord_key h').2, same.2]; exact h))
      exact absurd (this ▸ none) scale
    · exact ⟨rfl, id, fun _ => rfl⟩

/-- The rewriter sets an edge on a record of known scale alone, and lowers a window below the field it finds (R124). -/
theorem rewriteOutcome_edge {r : Option FlowRecord} {g : Segment} {f : Frame} :
    (∀ edge, rewriteOutcome r g f = .keep edge → ∃ r0, r = some r0 ∧ r0.scale ≠ none) ∧
      ∀ window edge, rewriteOutcome r g f = .lower window edge →
        (∃ r0, r = some r0 ∧ r0.scale ≠ none) ∧ window < windowField f g := by
  unfold rewriteOutcome
  split
  · exact ⟨fun _ h => (nomatch h), fun _ _ h => (nomatch h)⟩
  · split
    · exact ⟨fun _ h => (nomatch h), fun _ _ h => (nomatch h)⟩
    · rename_i r0
      split
      · exact ⟨fun _ h => (nomatch h), fun _ _ h => (nomatch h)⟩
      · rename_i sc hsc
        have known : ∃ r1, some r0 = some r1 ∧ r1.scale ≠ none := ⟨r0, rfl, by rw [hsc]; exact Option.some_ne_none sc⟩
        refine ⟨fun _ _ => known, fun window edge h => ⟨known, ?_⟩⟩
        dsimp only at h
        split at h
        · cases h
        · split at h
          · rename_i lower
            obtain ⟨rfl, -⟩ := RewriteOutcome.lower.inj h
            exact lower
          · cases h

theorem keepsRecords_rewrite (s : State) (l : LaneId) (f : Frame) : s.KeepsRecords l (s.rewrite l f).2 := by
  unfold State.rewrite
  split
  · exact .refl l s
  · rename_i g _
    split
    · exact .refl l s
    · exact keepsRecords_countLane s l (by decide)
    · rename_i edge h
      obtain ⟨r, hr, scale⟩ := rewriteOutcome_edge.1 edge h
      exact keepsRecords_setEdge hr scale edge
    · rename_i window edge h
      obtain ⟨⟨r, hr, scale⟩, -⟩ := rewriteOutcome_edge.2 window edge h
      exact (keepsRecords_setEdge hr scale edge).trans (keepsRecords_countLane _ l (by decide))

end Sys2Proof.Machine

/-! SUPPORT. The frame as the rewriter lets it leave, and the release of entries in a row: each leaves by the arbiter, a
GATED one charged (R57, R58, R64, R106, R107, R122, R130, R132). -/

namespace Sys2Proof.Machine

/-! ### Bytes put into a frame -/

theorem length_putBytes {bs new : List Byte} {off : Nat} (h : off + new.length ≤ bs.length) :
    (putBytes bs off new).length = bs.length := by
  simp only [putBytes, List.length_append, List.length_take, List.length_drop]
  omega

/-- Bytes outside those replaced stand. -/
theorem getElem?_putBytes {bs new : List Byte} {off i : Nat} (within : off ≤ bs.length)
    (h : i < off ∨ off + new.length ≤ i) : (putBytes bs off new)[i]? = bs[i]? := by
  have take : (bs.take off).length = off := List.length_take_of_le within
  unfold putBytes
  obtain h | h := h
  · rw [List.append_assoc, List.getElem?_append_left (by omega), List.getElem?_take_of_lt h]
  · rw [List.getElem?_append_right (by rw [List.length_append]; omega), List.getElem?_drop, List.length_append, take]
    congr 1
    omega

/-- The bytes put are those read. -/
theorem bytesAt_putBytes {bs new : List Byte} {off : Nat} (within : off ≤ bs.length) :
    bytesAt (putBytes bs off new) off new.length = new := by
  have take : (bs.take off).length = off := List.length_take_of_le within
  rw [bytesAt, putBytes, List.append_assoc, List.drop_left' take, List.take_left' rfl]

theorem bytesAt_congr {a b : List Byte} {off n : Nat} (h : ∀ i : Nat, off ≤ i → i < off + n → a[i]? = b[i]?) :
    bytesAt a off n = bytesAt b off n := by
  refine List.ext_getElem? fun i => ?_
  simp only [bytesAt, List.getElem?_take, List.getElem?_drop]
  split
  · exact h _ (by omega) (by omega)
  · rfl

/-! ### The rewritten frame -/

/-- The TCP header of a segment lies before the FCS. -/
theorem tcpAt_within {d : Direction} {f : Frame} {g : Segment} (h : segmentOf d f = some g) :
    g.tcpAt + 20 ≤ f.length - 4 := by
  obtain ⟨e, ip, header, packet, tcp⟩ := segmentOf_iff.mp h
  obtain ⟨least, most, r⟩ := parseTcp_iff.mp tcp
  obtain ⟨-, fits, -⟩ := (etherHeader_iff f e).mp header
  rw [r.tcpAt]
  obtain ⟨-, -, -, -, -, total, -, rfl⟩ | ⟨-, -, -, room, -, rfl⟩ := parseIp_iff.mp packet
  · dsimp only at least most ⊢; omega
  · dsimp only at least most ⊢; omega

/-- A frame rewritten with a lower window is that frame but for the window, the checksum and the FCS (R130, R132). -/
theorem leavesAs_rewriteFrame {f : Frame} {g : Segment} (h : segmentOf .outbound f = some g) {window : Nat}
    (lower : window < windowField f g) : leavesAs f (rewriteFrame f g window) := by
  have within := tcpAt_within h
  have size : (contentsOf f).length = f.length - 4 := length_contentsOf f
  have small : window < 65536 := lower.trans (fieldAt_lt f (g.tcpAt + 14) 2)
  refine .inr ⟨g, h, ?_⟩
  unfold rewriteFrame
  dsimp only
  generalize beBytes 2 (updateChecksum _ _ _).toNat = sum, beBytes_length 2 (updateChecksum _ _ _).toNat = sumLength
  have put : (putBytes (contentsOf f) (g.tcpAt + 14) (beBytes 2 window)).length = f.length - 4 := by
    rw [length_putBytes (by rw [beBytes_length]; omega), size]
  have puts : (putBytes (putBytes (contentsOf f) (g.tcpAt + 14) (beBytes 2 window)) (g.tcpAt + 16) sum).length =
      f.length - 4 := by rw [length_putBytes (by omega), put]
  have length : ∀ c : List Byte, c.length = f.length - 4 → (withFcs c).length = f.length := by
    intro c hc; rw [withFcs_length, hc]; omega
  have kept : ∀ i : Nat, i < f.length - 4 →
      (withFcs (putBytes (putBytes (contentsOf f) (g.tcpAt + 14) (beBytes 2 window)) (g.tcpAt + 16) sum))[i]? =
        (putBytes (putBytes (contentsOf f) (g.tcpAt + 14) (beBytes 2 window)) (g.tcpAt + 16) sum)[i]? :=
    fun i hi => List.getElem?_append_left (by rw [puts]; exact hi)
  refine ⟨length _ puts, ?_, ?_, fun i hi outside => ?_⟩
  · refine lt_of_eq_of_lt ?_ lower
    have field : bytesAt (withFcs (putBytes (putBytes (contentsOf f) (g.tcpAt + 14) (beBytes 2 window)) (g.tcpAt + 16)
        sum)) (g.tcpAt + 14) 2 = beBytes 2 window := by
      refine (bytesAt_congr fun i ge lt => ?_).trans (bytesAt_putBytes (bs := contentsOf f) (new := beBytes 2 window)
        (by omega))
      rw [kept i (by omega), getElem?_putBytes (by omega) (by omega)]
    rw [windowField, fieldAt, field, beNat_beBytes]
    exact Nat.mod_eq_of_lt small
  · have good := withFcs_good (putBytes (putBytes (contentsOf f) (g.tcpAt + 14) (beBytes 2 window)) (g.tcpAt + 16) sum)
    rwa [length _ puts] at good
  · rw [kept i hi, getElem?_putBytes (by omega) (by omega), getElem?_putBytes (by omega) (by rw [beBytes_length]; omega),
      contentsOf, List.getElem?_take_of_lt hi]

theorem leavesAs_rewrite (s : State) (l : LaneId) (f : Frame) : leavesAs f (s.rewrite l f).1 := by
  unfold State.rewrite
  split
  · exact .inl rfl
  · rename_i g h
    split
    · exact .inl rfl
    · exact .inl rfl
    · exact .inl rfl
    · rename_i window edge e
      exact leavesAs_rewriteFrame h (rewriteOutcome_edge.2 window edge e).2

/-! ### The charge of one entry on the flow table -/

theorem chargesTo_single {e : QueueEntry} {d : ClassDecision} (h : e.kind = .gated d) (key : FlowKey) :
    chargesTo key [e] = if e.key = key then [d.cost] else [] := by
  by_cases hk : e.key = key <;> simp [chargesTo, h, hk]

theorem makersFor_single {e : QueueEntry} {d : ClassDecision} (h : e.kind = .gated d) (key : FlowKey) :
    makersFor key [e] = if e.key = key ∧ d.role ≠ .exempt then [d] else [] := by
  by_cases hk : e.key = key <;> by_cases hr : d.role = .exempt <;> simp [makersFor, h, hk, hr]

theorem leavesUncharged_gated {e : QueueEntry} {d : ClassDecision} (h : e.kind = .gated d) (t : State) (l : LaneId) :
    t.leavesUncharged l e = true ↔ d.role ≠ .exempt ∧ t.findRecord l e.key = none := by
  rw [State.leavesUncharged, h, Bool.and_eq_true, decide_eq_true_eq, Option.isNone_iff_eq_none]

/-- What the charge of a request does on the flow table: its record is charged; or, there being none, the decision is
EXEMPT and makes none, or a record is made and charged, or there is no room and UNTRACKED is counted (R57, R58, R64). -/
theorem chargeRecord_cases (s : State) (l : LaneId) (key : FlowKey) (d : ClassDecision) :
    (∃ r : FlowRecord, s.findRecord l key = some r ∧
      s.chargeRecord l key d = s.modRecord l key fun r => r.charge d.cost) ∨
    (s.findRecord l key = none ∧
      ((d.role = .exempt ∧ s.chargeRecord l key d = s) ∨
        (d.role ≠ .exempt ∧ s.hasRoom l = false ∧ s.chargeRecord l key d = s.countLane l .untracked) ∨
        (d.role ≠ .exempt ∧ s.hasRoom l = true ∧ s.chargeRecord l key d =
          State.modRecord { s with pool := insertRecord (newRecord (lowestFree 0 s.pool) l key .opened d) s.pool } l key
            fun r => r.charge d.cost))) := by
  unfold State.chargeRecord
  cases h : s.findRecord l key with
  | some r => exact .inl ⟨r, rfl, rfl⟩
  | none =>
    refine .inr ⟨rfl, ?_⟩
    rw [Option.isNone_none, if_pos rfl]
    unfold State.createRecord
    by_cases exempt : d.role = .exempt
    · rw [if_pos exempt]
      exact .inl ⟨exempt, modRecord_of_none h _⟩
    · rw [if_neg exempt]
      cases room : s.hasRoom l with
      | false =>
        exact .inr (.inl ⟨exempt, rfl, modRecord_of_none (s := s.countLane l .untracked)
          ((findRecord_congr rfl l key).trans h) _⟩)
      | true => exact .inr (.inr ⟨exempt, rfl, rfl⟩)

/-- The accounting of an entry on the flow table alone. -/
def State.tableCharge (s : State) (l : LaneId) (e : QueueEntry) : State :=
  match e.kind with
  | .gated d => s.chargeRecord l e.key d
  | .follower => s

/-- The accounting of an entry is that of the flow table and a hand-on to the grant engine. -/
theorem keepsRecords_account (s : State) (l : LaneId) (e : QueueEntry) :
    (s.tableCharge l e).KeepsRecords l (s.account l e) := by
  rw [State.tableCharge, State.account]
  cases e.kind with
  | gated d => exact keepsRecords_afterActiveSet _ l s
  | follower => exact .refl l s

theorem accounted_tableCharge (s : State) (l : LaneId) (e : QueueEntry) :
    (s.lane l).Accounted ((s.tableCharge l e).lane l) := by
  unfold State.tableCharge
  split
  · exact accounted_chargeRecord s l _ _
  · exact .refl _

theorem laneEvent_tableCharge (s : State) (l : LaneId) (e : QueueEntry) : s.LaneEvent l (s.tableCharge l e) := by
  unfold State.tableCharge
  split
  · exact laneEvent_chargeRecord s l _ _
  · exact .refl l s

section

variable {s t : State} {l : LaneId} {e : QueueEntry} {d : ClassDecision} {f : Frame}

/-- An entry that leaves nothing to charge and makes no record. -/
theorem released_of_unchanged (keeps : s.KeepsRecords l t) (leaves : leavesAs e.frame f)
    (out : t.outgoing l = s.outgoing l ++ [f])
    (free : ∀ key : FlowKey, (∀ r : FlowRecord, s.findRecord l key = some r → chargesTo key [e] = []) ∧
      (s.findRecord l key = none → makersFor key [e] = []))
    (uncharged : ¬ t.leavesUncharged l e = true) : s.Released l [e] t where
  frames := ⟨[f], .cons leaves .nil, out⟩
  charged key r hr := by
    obtain ⟨r', he, same, seen, edge⟩ := keeps.found key r hr
    have none := (free key).1 r hr
    refine ⟨r', he, ?_, fun c => c.elim seen fun c => absurd none c, edge⟩
    rw [same, none]
    simp
  uncharged key hk _ := keeps.absent key hk
  made key d later hk hm := by rw [(free key).2 hk] at hm; cases hm
  order before e' after split left key hk _ := keeps.absent key hk
  untracked := by
    rw [keeps.untracked, List.filter_cons_of_neg uncharged]
    rfl
  stands _ := stands_of_places keeps.places
  roomless room := keeps.hasRoom.trans room

/-- A request whose connection has a record: the record is charged (R64). -/
theorem released_of_charged (gated : e.kind = .gated d) {r : FlowRecord} (found : s.findRecord l e.key = some r)
    (keeps : (s.modRecord l e.key fun r => r.charge d.cost).KeepsRecords l t) (leaves : leavesAs e.frame f)
    (out : t.outgoing l = s.outgoing l ++ [f]) : s.Released l [e] t := by
  have find : ∀ key : FlowKey, (s.modRecord l e.key fun r => r.charge d.cost).findRecord l key =
      (s.findRecord l key).map fun r => if e.key = key then r.charge d.cost else r :=
    fun key => findRecord_modRecord s l e.key key fun _ => ⟨rfl, rfl⟩
  have places : t.places = s.places := keeps.places.trans (places_map rfl fun r => by split <;> exact ⟨rfl, rfl, rfl⟩)
  have charged : ¬ t.leavesUncharged l e = true := fun h => by
    obtain ⟨r', hr', -⟩ := keeps.found e.key _ ((find e.key).trans (by rw [found]; rfl))
    rw [((leavesUncharged_gated gated t l).mp h).2] at hr'
    cases hr'
  refine {
    frames := ⟨[f], .cons leaves .nil, out⟩
    charged := fun key r hr => ?_
    uncharged := fun key hk _ => keeps.absent key ((find key).trans (by rw [hk]; rfl))
    made := fun key d' later hk hm => ?_
    order := fun before e' after _ _ key hk _ => keeps.absent key ((find key).trans (by rw [hk]; rfl))
    untracked := ?_
    stands := fun _ => stands_of_places places
    roomless := fun room => (hasRoom_of_places places keeps.params).trans room }
  · rw [chargesTo_single gated]
    by_cases hk : e.key = key
    · obtain ⟨r', hr', same, seen, edge⟩ := keeps.found key (r.charge d.cost)
        ((find key).trans (by rw [hr]; exact congrArg some (if_pos hk)))
      rw [if_pos hk]
      refine ⟨r', hr', ?_, fun _ => seen rfl, edge⟩
      refine (congrArg (fun x : FlowRecord => { x with seen := r.seen }) same :).trans ?_
      simp [FlowRecord.charge, Config.max24]
    · obtain ⟨r', hr', same, seen, edge⟩ := keeps.found key r
        ((find key).trans (by rw [hr]; exact congrArg some (if_neg hk)))
      rw [if_neg hk]
      refine ⟨r', hr', ?_, fun c => c.elim seen fun c => absurd rfl c, edge⟩
      rw [same]
      simp
  · rw [makersFor_single gated] at hm
    split at hm
    · rename_i same
      rw [← same.1, found] at hk; cases hk
    · cases hm
  · rw [keeps.untracked, List.filter_cons_of_neg charged]
    rfl

/-- A request without a record and without room: nothing is charged, and UNTRACKED is counted (R57, R107). -/
theorem released_of_refused (gated : e.kind = .gated d) (maker : d.role ≠ .exempt)
    (absent : s.findRecord l e.key = none) (room : s.hasRoom l = false)
    (keeps : (s.countLane l .untracked).KeepsRecords l t) (leaves : leavesAs e.frame f)
    (out : t.outgoing l = s.outgoing l ++ [f]) : s.Released l [e] t := by
  have params : (t.lane l).params = (s.lane l).params := keeps.params.trans (accounted_countLane s l _).params
  have roomless : t.hasRoom l = false := (hasRoom_of_places (s := s) keeps.places params).trans room
  have left : t.leavesUncharged l e = true := (leavesUncharged_gated gated t l).mpr ⟨maker, keeps.absent e.key absent⟩
  refine {
    frames := ⟨[f], .cons leaves .nil, out⟩
    charged := fun key r hr => ?_
    uncharged := fun key hk _ => keeps.absent key hk
    made := fun key d' later hk _ => .inl ⟨keeps.absent key hk, roomless⟩
    order := fun before e' after _ _ key hk _ => keeps.absent key hk
    untracked := ?_
    stands := fun _ => stands_of_places keeps.places
    roomless := fun _ => roomless }
  · obtain ⟨r', hr', same, seen, edge⟩ := keeps.found key r hr
    have other : e.key ≠ key := fun h => by rw [← h, absent] at hr; cases hr
    refine ⟨r', hr', ?_, ?_, edge⟩
    · rw [same, chargesTo_single gated, if_neg other]
      simp
    · rw [chargesTo_single gated, if_neg other]
      exact fun c => c.elim seen fun c => absurd rfl c
  · rw [keeps.untracked, State.lane_countLane_same, List.filter_cons_of_pos left]
    rfl

/-- A request without a record where there is room: a record is made in the lowest free slot and charged (R57, R58). -/
theorem released_of_made (gated : e.kind = .gated d) (maker : d.role ≠ .exempt)
    (absent : s.findRecord l e.key = none) (room : s.hasRoom l = true)
    (keeps : (State.modRecord { s with pool := insertRecord (newRecord (lowestFree 0 s.pool) l e.key .opened d) s.pool } l
      e.key fun r => r.charge d.cost).KeepsRecords l t) (leaves : leavesAs e.frame f)
    (out : t.outgoing l = s.outgoing l ++ [f]) : s.Released l [e] t := by
  obtain ⟨x, hx⟩ : ∃ x : FlowRecord, x = newRecord (lowestFree 0 s.pool) l e.key .opened d := ⟨_, rfl⟩
  obtain ⟨v, hv⟩ : ∃ v : State, v = { s with pool := insertRecord x s.pool } := ⟨_, rfl⟩
  rw [← hx, ← hv] at keeps
  have find : ∀ key : FlowKey, (v.modRecord l e.key fun r => r.charge d.cost).findRecord l key =
      if e.key = key then some (x.charge d.cost) else s.findRecord l key := by
    intro key
    rw [findRecord_modRecord v l e.key key (f := fun r => r.charge d.cost) fun _ => ⟨rfl, rfl⟩, hv,
      findRecord_insertRecord ⟨by rw [hx]; rfl, by rw [hx]; rfl⟩ absent]
    split
    · rfl
    · exact Option.map_id'
  have places : t.places = v.places := keeps.places.trans (places_map rfl fun r => by split <;> exact ⟨rfl, rfl, rfl⟩)
  have stands : ∀ y ∈ s.pool, ∃ y' ∈ t.pool, y'.slot = y.slot ∧ y'.lane = y.lane ∧ y'.key = y.key := fun y hy =>
    stands_of_places places (by rw [hv]; exact (mem_insertRecord x y s.pool).mpr (.inr hy))
  obtain ⟨r', hr', same, seen, edge⟩ := keeps.found e.key _ ((find e.key).trans (if_pos rfl))
  have charged : ¬ t.leavesUncharged l e = true := fun h => by
    rw [((leavesUncharged_gated gated t l).mp h).2] at hr'
    cases hr'
  have other : ∀ key : FlowKey, e.key ≠ key → s.findRecord l key = none → t.findRecord l key = none := fun key ne hk =>
    keeps.absent key ((find key).trans ((if_neg ne).trans hk))
  refine {
    frames := ⟨[f], .cons leaves .nil, out⟩
    charged := fun key r hr => ?_
    uncharged := fun key hk hm => ?_
    made := fun key d' later hk hm => .inr ⟨room, ?_⟩
    order := fun before e' after split left key hk _ => ?_
    untracked := ?_
    stands := stands
    roomless := fun none => by rw [room] at none; cases none }
  · have ne : e.key ≠ key := fun h => by rw [← h, absent] at hr; cases hr
    obtain ⟨r', hr', same, seen, edge⟩ := keeps.found key r ((find key).trans ((if_neg ne).trans hr))
    refine ⟨r', hr', ?_, ?_, edge⟩
    · rw [same, chargesTo_single gated, if_neg ne]
      simp
    · rw [chargesTo_single gated, if_neg ne]
      exact fun c => c.elim seen fun c => absurd rfl c
  · rw [makersFor_single gated] at hm
    refine other key (fun same => ?_) hk
    rw [if_pos ⟨same, maker⟩] at hm
    cases hm
  · rw [makersFor_single gated] at hm
    split at hm
    · rename_i same'
      obtain ⟨rfl, rfl⟩ := List.cons.inj hm
      refine ⟨r', same'.1 ▸ hr', fun n lt => ?_, ?_⟩
      · rw [show r'.slot = lowestFree 0 s.pool from (congrArg FlowRecord.slot same :).trans (by rw [hx]; rfl)] at lt
        obtain ⟨y, hy, slot⟩ := exists_slot_of_lt_lowestFree s.pool 0 n (Nat.zero_le n) lt
        obtain ⟨y', hy', slot', -⟩ := stands y hy
        exact ⟨y', hy', slot'.trans slot⟩
      · have known := congrArg (fun y : FlowRecord => { y with
          slot := r'.slot, grant := 0, seen := r'.seen, lastEdge := r'.lastEdge }) same
        refine (known :).trans ?_
        rw [seen rfl, edge (by rw [hx]; rfl), hx, ← same'.1]
        rfl
    · cases hm
  · obtain ⟨rfl, rfl⟩ : e' = e ∧ before = [] := by
      cases before with
      | nil => exact ⟨(List.cons.inj split).1.symm, rfl⟩
      | cons b bs => simp at split
    exact absurd left charged
  · rw [keeps.untracked, List.filter_cons_of_neg charged, State.lane_modRecord, hv]
    rfl

end

/-! ### The release of entries in their order -/

/-- An entry charged on the flow table, its frame made ready as the rewriter leaves it. -/
theorem released_tableCharge (s : State) (l : LaneId) {e : QueueEntry} {f : Frame} (leaves : leavesAs e.frame f) :
    s.Released l [e] ((s.tableCharge l e).makeReady l f) := by
  have out : ((s.tableCharge l e).makeReady l f).outgoing l = s.outgoing l ++ [f] := by
    rw [outgoing_makeReady, outgoing_of_accounted (accounted_tableCharge s l e) (laneEvent_tableCharge s l e)]
  have keeps := keepsRecords_makeReady (s.tableCharge l e) l f
  cases kind : e.kind with
  | follower =>
    have same : s.tableCharge l e = s := by rw [State.tableCharge, kind]
    rw [same] at keeps out ⊢
    refine released_of_unchanged keeps leaves out (fun key => ⟨fun _ _ => ?_, fun _ => ?_⟩) ?_
    · simp [chargesTo, kind]
    · simp [makersFor, kind]
    · simp [State.leavesUncharged, kind]
  | gated d =>
    have charge : s.tableCharge l e = s.chargeRecord l e.key d := by rw [State.tableCharge, kind]
    rw [charge] at keeps out ⊢
    obtain ⟨r, found, eq⟩ | ⟨absent, ⟨exempt, eq⟩ | ⟨maker, room, eq⟩ | ⟨maker, room, eq⟩⟩ :=
      chargeRecord_cases s l e.key d <;> rw [eq] at keeps out ⊢
    · exact released_of_charged kind found keeps leaves out
    · refine released_of_unchanged keeps leaves out (fun key => ⟨fun r hr => ?_, fun _ => ?_⟩) fun h => ?_
      · rw [chargesTo_single kind, if_neg fun same => by rw [← same, absent] at hr; cases hr]
      · rw [makersFor_single kind, if_neg fun c => c.2 exempt]
      · exact ((leavesUncharged_gated kind _ l).mp h).1 exempt
    · exact released_of_refused kind maker absent room keeps leaves out
    · exact released_of_made kind maker absent room keeps leaves out

/-- On a lane that enforces, an entry accounted and passed out is released (R106). -/
theorem released_passOut {s : State} {l : LaneId} (mode : (s.lane l).mode.enforcing = true) (e : QueueEntry) :
    s.Released l [e] ((s.account l e).passOut l e.frame) := by
  obtain ⟨u, hu⟩ : ∃ u : State, u = s.account l e := ⟨_, rfl⟩
  have account := accounted_account s l e
  have passes : (s.account l e).passOut l e.frame = (u.rewrite l e.frame).2.makeReady l (u.rewrite l e.frame).1 := by
    rw [hu, State.passOut, account.mode, if_pos mode]
  have charged : (s.tableCharge l e).KeepsRecords l u := by rw [hu]; exact keepsRecords_account s l e
  have keeps := (charged.trans (keepsRecords_rewrite u l e.frame)).makeReady (u.rewrite l e.frame).1
  have before : (u.rewrite l e.frame).2.outgoing l = (s.tableCharge l e).outgoing l := by
    rw [outgoing_of_accounted (accounted_rewrite u l e.frame) (laneEvent_rewrite u l e.frame), hu,
      outgoing_of_accounted account (laneEvent_account s l e),
      outgoing_of_accounted (accounted_tableCharge s l e) (laneEvent_tableCharge s l e)]
  rw [passes]
  exact (released_tableCharge s l (leavesAs_rewrite u l e.frame)).append (b := [])
    (keeps.released_nil (by rw [outgoing_makeReady, outgoing_makeReady, before]))

theorem released_releaseHead {s : State} {l : LaneId} {e : QueueEntry} {rest : List QueueEntry}
    (mode : (s.lane l).mode.enforcing = true) (queue : (s.lane l).queue = e :: rest) :
    s.Released l [e] (s.releaseHead l) := by
  have popped : s.Released l [] (s.modLane l fun x => { x with queue := rest }) := by
    refine State.KeepsRecords.released_nil (.of_pool rfl ?_ ?_) ?_
    · rw [State.lane_modLane_same]
    · rw [State.lane_modLane_same]
    · rw [State.outgoing, State.outgoing, State.lane_modLane_same]
      rfl
  unfold State.releaseHead
  rw [queue]
  exact popped.append (released_passOut (by rw [State.lane_modLane_same]; exact mode) e)

/-- The first entries of a queue, released in a row. -/
theorem released_releaseFirst (l : LaneId) (n : Nat) : ∀ s : State, (s.lane l).mode.enforcing = true →
    s.Released l ((s.lane l).queue.take n) (State.releaseFirst n l s) := by
  induction n with
  | zero => exact fun s _ => .nil s l
  | succ n ih =>
    intro s mode
    unfold State.releaseFirst
    cases queue : (s.lane l).queue with
    | nil =>
      have still : s.releaseHead l = s := by unfold State.releaseHead; rw [queue]
      have rest := ih s mode
      rw [queue, List.take_nil] at rest
      rw [still, List.take_nil]
      exact rest
    | cons e rest =>
      obtain ⟨hq, hm, -⟩ := releaseHead_spec s l e rest queue
      have later := ih (s.releaseHead l) (by rw [hm]; exact mode)
      rw [hq] at later
      rw [List.take_succ_cons]
      exact (released_releaseHead mode queue).append later

theorem released_releaseAll {s : State} {l : LaneId} (mode : (s.lane l).mode.enforcing = true) :
    s.Released l (s.lane l).queue (s.releaseAll l) := by
  have all := released_releaseFirst l (s.lane l).queue.length s mode
  rwa [List.take_length] at all

/-- The end of a drain changes the mode and the target alone. -/
theorem released_finishDrain (s : State) (l : LaneId) : s.Released l [] (s.finishDrain l) := by
  have lane : ∃ (m : Mode) (t : DrainTarget), (s.finishDrain l).lane l = { s.lane l with mode := m, target := t } := by
    rw [finishDrain_lane]
    split
    · exact ⟨_, _, rfl⟩
    · exact ⟨_, _, rfl⟩
  obtain ⟨m, t, lane⟩ := lane
  have rest := (laneEvent_finishDrain s l).rest
  have pool : (s.finishDrain l).pool = s.pool := by unfold State.finishDrain; split <;> rfl
  refine State.KeepsRecords.released_nil (.of_pool pool (by rw [lane]) (by rw [lane])) ?_
  rw [State.outgoing, State.outgoing, lane, show (s.finishDrain l).fabricSent = s.fabricSent from
    (congrArg State.fabricSent rest :)]

end Sys2Proof.Machine

/-! SUPPORT. The two events that release a whole queue: RELEASE-LANE and the overflow flush (R33, R106, R107, R113, R114,
R116). -/

namespace Sys2Proof.Machine

/-! ### The gate's counters and latch -/

/-- What the gate counts on a lane, and whether GATEFLUSH of the lane is latched. -/
def State.gateTally (s : State) (l : LaneId) : (Nat × Nat × Nat × Nat) × Bool :=
  (((s.lane l).counters.forced, (s.lane l).counters.flushes, (s.lane l).counters.gated,
    (s.lane l).counters.followed), s.latched (.gateFlush l))

theorem gateTally_congr {s t : State} {l : LaneId} (counters : (t.lane l).counters = (s.lane l).counters)
    (latch : t.latch = s.latch) : t.gateTally l = s.gateTally l := by
  rw [State.gateTally, State.latched, counters, latch]
  rfl

/-- Counting what is not the gate's own leaves the gate's counters. -/
theorem gateTally_countLane (s : State) (l : LaneId) {c : LaneCounter}
    (h : c = .untracked ∨ c = .unscaled ∨ c = .lowered) : (s.countLane l c).gateTally l = s.gateTally l := by
  rw [State.gateTally, State.lane_countLane_same]
  obtain rfl | rfl | rfl := h <;> rfl

/-- OVERLOAD latched leaves GATEFLUSH as it was. -/
theorem gateTally_latchOverload (s : State) (l : LaneId) : (s.latchOverload l).gateTally l = s.gateTally l := by
  have other : (Event.overload l).mask.getLsbD (Event.gateFlush l).bit = false := by revert l; decide
  unfold State.latchOverload
  split
  · rw [State.gateTally, State.latched, State.latchEvent, BitVec.getLsbD_or, other, Bool.or_false]
    rfl
  · rfl

theorem gateTally_afterActiveSet (s : State) (l : LaneId) (before : State) :
    (s.afterActiveSet l before).gateTally l = s.gateTally l := by
  unfold State.afterActiveSet
  split
  · refine (gateTally_latchOverload _ l).trans (gateTally_congr ?_ rfl)
    rw [State.lane_modLane_same]
    rfl
  · rfl

theorem gateTally_account (s : State) (l : LaneId) (e : QueueEntry) : (s.account l e).gateTally l = s.gateTally l := by
  unfold State.account
  split
  · rename_i d _
    refine (gateTally_afterActiveSet _ l s).trans ?_
    obtain ⟨r, -, eq⟩ | ⟨-, ⟨-, eq⟩ | ⟨-, -, eq⟩ | ⟨-, -, eq⟩⟩ := chargeRecord_cases s l e.key d <;> rw [eq]
    · rfl
    · exact gateTally_countLane s l (.inl rfl)
    · rfl
  · rfl

theorem gateTally_rewrite (s : State) (l : LaneId) (f : Frame) : (s.rewrite l f).2.gateTally l = s.gateTally l := by
  unfold State.rewrite
  split
  · rfl
  · split
    · rfl
    · exact gateTally_countLane s l (.inr (.inl rfl))
    · rfl
    · exact gateTally_countLane (s.setEdge l _ _) l (.inr (.inr rfl))

theorem gateTally_makeReady (s : State) (l : LaneId) (f : Frame) : (s.makeReady l f).gateTally l = s.gateTally l :=
  gateTally_congr (by rw [lane_makeReady_same, LaneState.addReady, startReady_counters]) rfl

theorem gateTally_passOut (s : State) (l : LaneId) (f : Frame) : (s.passOut l f).gateTally l = s.gateTally l := by
  unfold State.passOut
  split
  · exact (gateTally_makeReady _ l _).trans (gateTally_rewrite s l f)
  · exact gateTally_makeReady s l f

theorem gateTally_releaseHead (s : State) (l : LaneId) : (s.releaseHead l).gateTally l = s.gateTally l := by
  unfold State.releaseHead
  split
  · rfl
  · refine ((gateTally_passOut _ l _).trans (gateTally_account _ l _)).trans (gateTally_congr ?_ rfl)
    rw [State.lane_modLane_same]

theorem gateTally_releaseFirst (l : LaneId) (n : Nat) : ∀ s : State,
    (State.releaseFirst n l s).gateTally l = s.gateTally l := by
  induction n with
  | zero => exact fun _ => rfl
  | succ n ih => exact fun s => (ih (s.releaseHead l)).trans (gateTally_releaseHead s l)

theorem gateTally_releaseAll (s : State) (l : LaneId) : (s.releaseAll l).gateTally l = s.gateTally l :=
  gateTally_releaseFirst l _ s

theorem gateTally_finishDrain (s : State) (l : LaneId) : (s.finishDrain l).gateTally l = s.gateTally l := by
  refine gateTally_congr ?_ (by unfold State.finishDrain; split <;> rfl)
  rw [finishDrain_lane]
  split <;> rfl

/-! ### The end of a drain -/

/-- A DRAINING lane with an empty queue enters its target, and no other lane changes its mode (R33). -/
theorem finishDrain_mode {s : State} {l : LaneId} (empty : (s.lane l).queue = []) :
    ((s.finishDrain l).lane l).mode = (if (s.lane l).mode = .draining then
        if (s.lane l).target = .monitor then .monitor else .bypass
      else (s.lane l).mode) ∧
    ((s.lane l).mode = .draining → ((s.finishDrain l).lane l).target = .none) := by
  rw [finishDrain_lane, empty]
  by_cases draining : (s.lane l).mode = .draining
  · rw [if_pos ⟨draining, rfl⟩, if_pos draining]
    exact ⟨rfl, fun _ => rfl⟩
  · rw [if_neg fun c => draining c.1, if_neg draining]
    exact ⟨rfl, fun h => absurd h draining⟩

theorem releaseAll_modes (s : State) (l : LaneId) :
    ((s.releaseAll l).lane l).mode = (s.lane l).mode ∧ ((s.releaseAll l).lane l).target = (s.lane l).target :=
  (stays_releaseAll (entries_any s)).modes l

/-! ### RELEASE-LANE -/

/-- What RELEASE-LANE's releases do on a lane that enforces (R116). -/
structure State.ReleasesQueue (s : State) (l : LaneId) (t : State) : Prop where
  queue : (t.lane l).queue = []
  released : s.Released l (s.lane l).queue t
  tally : t.gateTally l = s.gateTally l
  mode : (t.lane l).mode = if (s.lane l).mode = .draining then
      if (s.lane l).target = .monitor then .monitor else .bypass
    else (s.lane l).mode
  target : (s.lane l).mode = .draining → (t.lane l).target = .none

theorem releasesQueue_releaseLane {s : State} {l : LaneId} (mode : (s.lane l).mode.enforcing = true) :
    s.ReleasesQueue l (s.releaseLane l) := by
  have eq : s.releaseLane l = (s.releaseAll l).finishDrain l := if_pos mode
  have empty := (releaseAll_queue s l).1
  obtain ⟨hm, ht⟩ := releaseAll_modes s l
  obtain ⟨mode', target'⟩ := finishDrain_mode empty
  rw [hm, ht] at mode'
  rw [hm] at target'
  rw [eq]
  refine ⟨(finishDrain_queue _ l).trans empty, ?_, (gateTally_finishDrain _ l).trans (gateTally_releaseAll s l), mode',
    target'⟩
  have all := (released_releaseAll mode).append (released_finishDrain (s.releaseAll l) l)
  rwa [List.append_nil] at all

/-- The engine and the last item have no part in it. -/
theorem State.ReleasesQueue.apart {s t u : State} {l : LaneId} (r : s.ReleasesQueue l u)
    (apart : t.apartEngine = u.apartEngine) : s.ReleasesQueue l t := by
  have lane : t.lane l = u.lane l := State.lane_congr (congrArg State.lanes apart :) l
  have pool : t.pool = u.pool := (congrArg State.pool apart :)
  have sent : t.fabricSent = u.fabricSent := (congrArg State.fabricSent apart :)
  have out : t.outgoing l = u.outgoing l := by rw [State.outgoing, State.outgoing, lane, sent]
  refine ⟨by rw [lane]; exact r.queue, ?_,
    (gateTally_congr (s := u) (t := t) (by rw [lane]) (congrArg State.latch apart :)).trans r.tally, by rw [lane]; exact r.mode,
    by rw [lane]; exact r.target⟩
  have all := r.released.append (State.KeepsRecords.released_nil (.of_pool pool (by rw [lane]) (by rw [lane])) out)
  rwa [List.append_nil] at all

theorem laneEvent_releaseLane (s : State) (l : LaneId) : s.LaneEvent l (s.releaseLane l) := by
  unfold State.releaseLane
  split
  · exact (laneEvent_releaseAll s l).trans (laneEvent_finishDrain _ l)
  · exact .refl l s

/-- States that differ in the engine and the last item alone agree on a lane, its records, its frames and its events. -/
theorem State.LaneEvent.apartEngine {s t : State} {l : LaneId} (h : s.LaneEvent l t) :
    State.LaneEvent l s.apartEngine t.apartEngine :=
  ⟨h.lanes, h.records, h.latch, (congrArg State.apartEngine h.rest :)⟩

theorem effectReleaseLane_eq {params : List Byte} {space : Nat} {l : LaneId} (s : State) (fits : 2 ≤ space)
    (len : 1 ≤ params.length) (lane : byteAt params 0 = l.val) : effectReleaseLane params space s =
      ⟨.ok, [BitVec.ofNat 8 (if (s.lane l).mode.enforcing then (s.lane l).queue.length else 0),
        ((s.releaseLane l).lane l).mode.code], s.releaseLane l⟩ := by
  unfold effectReleaseLane
  rw [withLength_of_le len, withLane_of_val lane]
  dsimp only
  rw [withSpace_of_le fits, beBytes_one]
  rfl

/-- Settles O35: the releases in queue order, then the end of the drain. -/
theorem releaseLaneEmptiesTheQueue : Obligations.ReleaseLaneEmptiesTheQueue := by
  unfold Obligations.ReleaseLaneEmptiesTheQueue
  intro params s space l now fits len lane
  obtain ⟨t, answer, item, apart⟩ := exec_command_spec (c := .releaseLane params) rfl now
  rw [show (Instr.releaseLane params).outcome space s = effectReleaseLane params space s from rfl,
    effectReleaseLane_eq s fits len lane] at item apart
  dsimp only at item apart
  refine ⟨fun mode => ⟨t, answer, ?_⟩, fun mode => ⟨t, answer, ?_⟩⟩
  · have none : s.releaseLane l = s := if_neg (by rw [mode]; exact Bool.false_ne_true)
    rw [none, mode] at item
    rw [none] at apart
    exact ⟨item, apart⟩
  · have r := (releasesQueue_releaseLane mode).apart apart
    have lane' : t.lane l = (s.releaseLane l).lane l := State.lane_congr (congrArg State.lanes apart :) l
    have sent : t.fabricSent = (s.releaseLane l).fabricSent := (congrArg State.fabricSent apart :)
    obtain ⟨counts, flush⟩ := Prod.mk.inj r.tally
    obtain ⟨forced, counts⟩ := Prod.mk.inj counts
    have frames : (t.framesOf l).length = (s.framesOf l).length := by
      rw [length_framesOf, lane', sent, ← length_framesOf]
      exact (moves_releaseLane l (entries_any s)).toShifts.length_framesOf l
    rw [if_pos mode, ← lane'] at item
    refine ⟨item, r.queue, r.released, frames, forced, (Prod.mk.inj counts).1, flush, fun active => ?_,
      fun draining => ⟨r.target draining, ?_⟩, ?_⟩
    · rw [r.mode, active]; rfl
    · rw [r.mode, if_pos draining]
    · rw [apart]; exact (laneEvent_releaseLane s l).apartEngine

/-! ### The overflow flush -/

/-- The flush empties the queue and leaves behind every held frame; FLUSHES is counted and GATEFLUSH latched. -/
structure State.Flushes (s : State) (l : LaneId) (e : QueueEntry) (t : State) : Prop where
  queue : (t.lane l).queue = []
  released : s.Released l ((s.lane l).queue ++ [e]) t
  flushes : (t.lane l).counters.flushes = bump (s.lane l).counters.flushes
  latched : t.latched (.gateFlush l) = true
  forced : (t.lane l).counters.forced = (s.lane l).counters.forced
  gated : (t.lane l).counters.gated = (s.lane l).counters.gated
  followed : (t.lane l).counters.followed = (s.lane l).counters.followed
  mode : (t.lane l).mode = if (s.lane l).mode = .draining then
      if (s.lane l).target = .monitor then .monitor else .bypass
    else (s.lane l).mode

theorem flushes_overflowFlush {s : State} {l : LaneId} (mode : (s.lane l).mode.enforcing = true) (kind : EntryKind)
    (key : FlowKey) (f : Frame) : s.Flushes l ⟨kind, key, f, 0⟩ (s.overflowFlush l kind key f) := by
  obtain ⟨e, he⟩ : ∃ e : QueueEntry, e = ⟨kind, key, f, 0⟩ := ⟨_, rfl⟩
  obtain ⟨empty, hm⟩ := releaseAll_queue s l
  have account := accounted_account (s.releaseAll l) l e
  obtain ⟨hq, -, -⟩ := passOut_spec ((s.releaseAll l).account l e) l f
  obtain ⟨pm, pt⟩ := passOut_modes ((s.releaseAll l).account l e) l f
  obtain ⟨p, hp⟩ : ∃ p : State, p = ((s.releaseAll l).account l e).passOut l f := ⟨_, rfl⟩
  rw [← hp] at hq pm pt
  obtain ⟨q, hq'⟩ : ∃ q : State, q = (p.countLane l .flushes).latchEvent (.gateFlush l) := ⟨_, rfl⟩
  have lane : q.lane l = { p.lane l with counters := (p.lane l).counters.count .flushes } := by
    rw [hq', State.lane_latchEvent, State.lane_countLane_same]
  have qempty : (q.lane l).queue = [] := by rw [lane]; exact hq.trans (account.queue.trans empty)
  have qmode : (q.lane l).mode = (s.lane l).mode := by rw [lane]; exact pm.trans (account.mode.trans hm)
  have qtarget : (q.lane l).target = (s.lane l).target := by
    rw [lane]; exact pt.trans (account.target.trans (releaseAll_modes s l).2)
  have tally : p.gateTally l = s.gateTally l := by
    rw [hp, gateTally_passOut, gateTally_account, gateTally_releaseAll]
  have tally' : (q.finishDrain l).gateTally l = q.gateTally l := gateTally_finishDrain q l
  obtain ⟨counts, -⟩ := Prod.mk.inj tally
  obtain ⟨counts', latch'⟩ := Prod.mk.inj tally'
  simp only [Prod.mk.injEq, lane] at counts counts'
  have eq : s.overflowFlush l kind key f = q.finishDrain l := by rw [hq', hp, he]; rfl
  have passed : s.Released l ((s.lane l).queue ++ [e]) p := by
    have last := released_passOut (s := s.releaseAll l) (l := l) (by rw [hm]; exact mode) e
    have frame : e.frame = f := by rw [he]
    rw [frame, ← hp] at last
    exact (released_releaseAll mode).append last
  have counted : p.Released l [] q := by
    refine State.KeepsRecords.released_nil (.of_pool (by rw [hq']; rfl) (by rw [lane]) (by rw [lane]; rfl)) ?_
    rw [State.outgoing, State.outgoing, lane, hq']
    rfl
  rw [eq, ← he]
  refine ⟨(finishDrain_queue q l).trans qempty, ?_, counts'.2.1.trans (congrArg bump counts.2.1), ?_,
    counts'.1.trans counts.1, counts'.2.2.1.trans counts.2.2.1, counts'.2.2.2.trans counts.2.2.2, ?_⟩
  · have all := (passed.append counted).append (released_finishDrain q l)
    rwa [List.append_nil, List.append_nil] at all
  · rw [latch', hq']
    exact State.latched_latchEvent_same _ _
  · rw [(finishDrain_mode qempty).1, qmode, qtarget]

/-! ### A segment without SYN and RST from the station -/

/-- The report of an outbound segment without SYN and RST marks its record seen, and no more (R59). -/
theorem reportSegment_plain {s : State} {l : LaneId} {g : Segment} (out : g.direction = .outbound)
    (syn : g.syn = false) (rst : g.rst = false) :
    s.reportSegment l g = s.modRecord l g.key fun r => { r with seen := true } := by
  have noSyn : ∀ d : ClassDecision, s.stepSyn l g d = s := fun d => if_pos (by rw [syn]; rfl)
  have noClose : s.stepClose l g = s := if_neg (by rw [rst, out]; simp)
  have noPayload : ∀ d : ClassDecision, s.stepPayload l g d = s := fun d =>
    if_neg fun c => by rw [out] at c; cases c.1
  unfold State.reportSegment
  dsimp only
  rw [noSyn, noClose, noPayload]
  rfl

theorem direction_of_segmentOf {d : Direction} {f : Frame} {g : Segment} (h : segmentOf d f = some g) :
    g.direction = d := by
  obtain ⟨-, ip, -, -, tcp⟩ := segmentOf_iff.mp h
  exact (parseTcp_iff.mp tcp).2.2.direction

/-- A record marked seen. -/
def FlowRecord.markSeen (r : FlowRecord) : FlowRecord := { r with seen := true }

section

variable (s : State) (l : LaneId) (key : FlowKey)

/-- The records of a lane with one marked seen. -/
theorem records_markSeen : (s.modRecord l key FlowRecord.markSeen).records l =
    (s.records l).map fun r => if r.lane = l ∧ r.key = key then r.markSeen else r := by
  rw [State.records, State.modRecord, List.filter_map, State.records]
  congr 2
  funext r
  simp only [Function.comp_apply]
  split <;> rfl

theorem activeRecords_markSeen : (s.modRecord l key FlowRecord.markSeen).activeRecords l =
    (s.activeRecords l).map fun r => if r.lane = l ∧ r.key = key then r.markSeen else r := by
  rw [State.activeRecords, records_markSeen, List.filter_map, State.activeRecords]
  congr 2
  funext r
  simp only [Function.comp_apply]
  split <;> rfl

theorem activeSet_markSeen : (s.modRecord l key FlowRecord.markSeen).activeSet l = s.activeSet l := by
  rw [State.activeSet, activeRecords_markSeen, List.map_map]
  refine List.map_congr_left fun r _ => ?_
  simp only [Function.comp_apply]
  split <;> rfl

theorem n_markSeen : (s.modRecord l key FlowRecord.markSeen).n l = s.n l := by
  rw [State.n, activeRecords_markSeen, List.length_map]
  rfl

theorem c_markSeen : (s.modRecord l key FlowRecord.markSeen).c l = s.c l := by
  rw [State.c, records_markSeen, List.map_map]
  refine congrArg List.sum (List.map_congr_left fun r _ => ?_)
  simp only [Function.comp_apply]
  split <;> rfl

theorem findRecord_markSeen (key' : FlowKey) : (s.modRecord l key FlowRecord.markSeen).findRecord l key' =
    (s.findRecord l key').map fun r => if key = key' then r.markSeen else r :=
  findRecord_modRecord s l key key' fun _ => ⟨rfl, rfl⟩

/-- A record marked seen is no change to hand on (R68). -/
theorem handOn_markSeen : (s.modRecord l key FlowRecord.markSeen).handOn l s = s.modRecord l key FlowRecord.markSeen := by
  have still : (s.modRecord l key FlowRecord.markSeen).afterActiveSet l s = s.modRecord l key FlowRecord.markSeen := by
    refine if_neg fun c => ?_
    rw [Bool.and_eq_true, decide_eq_true_eq] at c
    exact c.2 (activeSet_markSeen s l key)
  have quiet : (s.modRecord l key FlowRecord.markSeen).gateCause l s = false := by
    simp [State.gateCause, n_markSeen, c_markSeen]
  unfold State.handOn
  rw [still]
  dsimp only
  rw [quiet, Bool.and_false]
  exact if_neg Bool.false_ne_true

/-- Admission does not ask whether a record was seen. -/
theorem passesAdmission_markSeen (cost : Nat) :
    (s.modRecord l key FlowRecord.markSeen).passesAdmission l key cost = s.passesAdmission l key cost := by
  have active : (s.modRecord l key FlowRecord.markSeen).recordActive l key = s.recordActive l key := by
    rw [State.recordActive, findRecord_markSeen, State.recordActive]
    cases s.findRecord l key with
    | none => rfl
    | some r => rw [Option.map_some, if_pos rfl]; rfl
  rw [State.passesAdmission, State.passesAdmission, c_markSeen, n_markSeen, active]
  rfl

theorem keepsRecords_markSeen : s.KeepsRecords l (s.modRecord l key FlowRecord.markSeen) := by
  refine .of_map rfl (fun r => ?_) (fun key' r _ => ?_) rfl rfl
  · split <;> exact ⟨rfl, rfl, rfl⟩
  · split
    · exact ⟨rfl, fun _ => rfl, fun _ => rfl⟩
    · exact ⟨rfl, id, fun _ => rfl⟩

end

/-- Settles O16: the arriving frame is to be held and finds no room, so the flush releases the queue and it last. -/
theorem overflowFlushReleasesTheQueue : Obligations.OverflowFlushReleasesTheQueue := by
  unfold Obligations.OverflowFlushReleasesTheQueue
  intro l f g kind s clocked tcp mode syn rst full toHold
  have segment : segmentOf .outbound f = some g := tcp.2.2
  obtain ⟨u, hu⟩ : ∃ u : State, u = s.modRecord l g.key FlowRecord.markSeen := ⟨_, rfl⟩
  have report : s.reportSegment l g = u := hu ▸ reportSegment_plain (direction_of_segmentOf segment) syn rst
  have handed : u.handOn l s = u := hu ▸ handOn_markSeen s l g.key
  have tracking : (s.lane l).mode.tracking = true := by
    revert mode
    cases (s.lane l).mode <;> simp [Mode.enforcing, Mode.tracking]
  have lanes : u.lanes = s.lanes := by rw [hu]; rfl
  have lane : u.lane l = s.lane l := State.lane_congr lanes l
  have noRoom : ¬ u.roomFor l f = true := by
    have same : u.roomFor l f = s.roomFor l f := by rw [hu]; rfl
    rw [same, full]
    exact Bool.false_ne_true
  have holds : u.holds l g.key = s.holds l g.key := by rw [State.holds, lane]; rfl
  have held : s.outboundSegment l g f = u.overflowFlush l kind g.key f := by
    unfold State.outboundSegment
    rw [if_pos tracking]
    dsimp only
    rw [report, handed]
    have flush : u.hold l kind g.key f = u.overflowFlush l kind g.key f := if_neg noRoom
    rw [← flush, State.gateArrival, lane, mode, Bool.true_and, holds]
    obtain ⟨holding, rfl⟩ | ⟨free, rfl, active, payload, request, closed, waits⟩ := toHold
    · exact if_pos holding
    · have start : u.requestStart l g (s.lookup l g) = true := by
        have stillClosed : ∀ r : FlowRecord, u.findRecord l g.key = some r → r.requestOpen = false := by
          intro r hr
          rw [hu, findRecord_markSeen] at hr
          obtain ⟨r0, hr0, rfl⟩ := Option.map_eq_some_iff.mp hr
          rw [if_pos rfl]
          exact closed r0 hr0
        rw [State.requestStart, holds, free, rst, request, decide_eq_true ⟨direction_of_segmentOf segment, payload⟩]
        cases found : u.findRecord l g.key with
        | none => rfl
        | some r => simp [stillClosed r found]
      rw [free, if_neg Bool.false_ne_true, if_pos start, if_pos]
      refine ⟨active, fun ⟨empty, pass⟩ => ?_⟩
      rw [hu, passesAdmission_markSeen] at pass
      obtain more | fails := waits
      · exact more empty
      · rw [fails] at pass; cases pass
  have flushes := flushes_overflowFlush (s := u) (by rw [lane]; exact mode) kind g.key f
  have released := (State.KeepsRecords.released_nil (hu ▸ keepsRecords_markSeen s l g.key)
    (by rw [State.outgoing, State.outgoing, lane, hu]; rfl : u.outgoing l = s.outgoing l)).append flushes.released
  have frames := (moves_outboundSegment (l := l) (supply_any s) segment).toShifts.length_framesOf l
  rw [held, Pi.single_eq_same] at frames
  have hm := flushes.mode
  rw [lane] at released hm
  refine ⟨u.overflowFlush l kind g.key f, by rw [exec_outbound clocked, outboundFrame_tcp tcp, held], flushes.queue,
    released, frames, lane ▸ flushes.flushes, flushes.latched, lane ▸ flushes.forced, lane ▸ flushes.gated,
    lane ▸ flushes.followed, hm.trans ?_⟩
  cases (s.lane l).mode
  case draining => cases (s.lane l).target <;> rfl
  all_goals rfl

end Sys2Proof.Machine

/-! SUPPORT. What an event leaves of the lanes it does not act on, and the turn of one lane in an event that takes the
lanes one after another. -/

namespace Sys2Proof.Machine

/-! ### Lanes left alone -/

/-- An event that leaves a lane and its records as they stand. -/
structure State.Spares (l : LaneId) (s t : State) : Prop where
  lane : t.lane l = s.lane l
  records : t.records l = s.records l

theorem State.Spares.refl (l : LaneId) (s : State) : s.Spares l s := ⟨rfl, rfl⟩

theorem State.Spares.trans {l : LaneId} {s t u : State} (h : s.Spares l t) (h' : t.Spares l u) : s.Spares l u :=
  ⟨h'.lane.trans h.lane, h'.records.trans h.records⟩

theorem State.Spares.symm {l : LaneId} {s t : State} (h : s.Spares l t) : t.Spares l s := ⟨h.lane.symm, h.records.symm⟩

theorem State.Spares.of_eq {s t : State} (lanes : t.lanes = s.lanes) (pool : t.pool = s.pool) (l : LaneId) :
    s.Spares l t := ⟨State.lane_congr lanes l, by rw [State.records, pool]; rfl⟩

theorem State.LaneEvent.spares {k l : LaneId} {s t : State} (h : s.LaneEvent k t) (ne : l ≠ k) : s.Spares l t :=
  ⟨h.lanes l ne, h.records l ne⟩

/-! ### The turns of the lanes -/

/-- What lies outside the lanes, the pool and the latch stands. -/
def State.SameRest (s t : State) : Prop := { t with lanes := s.lanes, pool := s.pool, latch := s.latch } = s

theorem State.SameRest.trans {s t u : State} (h : s.SameRest t) (h' : t.SameRest u) : s.SameRest u :=
  (congrArg (fun x : State => { x with lanes := s.lanes, pool := s.pool, latch := s.latch }) h' :).trans h

section turns

variable {f : LaneId → State → State}

theorem foldl_sameRest (event : ∀ (k : LaneId) (s : State), s.LaneEvent k (f k s)) (ls : List LaneId) :
    ∀ s : State, s.SameRest (ls.foldl (fun s k => f k s) s) := by
  induction ls with
  | nil => exact fun _ => rfl
  | cons k rest ih => exact fun s => State.SameRest.trans (event k s).rest (ih (f k s))

/-- The turns of other lanes keep what each of them keeps. -/
theorem foldl_keeps {P : State → Prop} (ls : List LaneId) (h : ∀ k ∈ ls, ∀ s : State, P s → P (f k s)) :
    ∀ s : State, P s → P (ls.foldl (fun s k => f k s) s) := by
  induction ls with
  | nil => exact fun _ => id
  | cons k rest ih =>
    exact fun s hs => ih (fun j hj => h j (List.mem_cons_of_mem _ hj)) (f k s) (h k List.mem_cons_self s hs)

theorem foldl_spares (spares : ∀ (k l : LaneId) (s : State), l ≠ k → s.Spares l (f k s)) {l : LaneId} (ls : List LaneId)
    (h : l ∉ ls) (s : State) : s.Spares l (ls.foldl (fun s k => f k s) s) :=
  foldl_keeps (P := s.Spares l) ls (fun k hk u hu => hu.trans (spares k l u fun e => h (e ▸ hk))) s (.refl l s)

/-- The lanes before one and after it. -/
theorem allLanes_split (l : LaneId) : ∃ before after : List LaneId, allLanes = before ++ l :: after ∧ l ∉ before ∧
    l ∉ after ∧ ∀ l' ∈ before, l' ∉ after := by
  obtain ⟨before, after, split⟩ := List.append_of_mem (mem_allLanes l)
  have nodup : (before ++ l :: after).Nodup := by rw [← split]; decide
  obtain ⟨-, tail, apart⟩ := List.nodup_append.mp nodup
  exact ⟨before, after, split, fun h => apart l h l List.mem_cons_self rfl, (List.nodup_cons.mp tail).1,
    fun l' early late => apart l' early l' (List.mem_cons_of_mem _ late) rfl⟩

/-- An event that takes the lanes one after another gives each lane one turn, which alone touches it. -/
theorem spares_forEachLane (spares : ∀ (k l : LaneId) (s : State), l ≠ k → s.Spares l (f k s)) (l : LaneId) (s : State) :
    ∃ u : State, s.Spares l u ∧ (f l u).Spares l (forEachLane f s) := by
  obtain ⟨before, after, split, early, late, -⟩ := allLanes_split l
  refine ⟨_, foldl_spares spares before early s, ?_⟩
  rw [forEachLane, split, List.foldl_append, List.foldl_cons]
  exact foldl_spares spares after late _

/-- The same of events of their lanes alone (R70, R139, R175). -/
theorem laneTurn_forEachLane (event : ∀ (k : LaneId) (s : State), s.LaneEvent k (f k s)) (l : LaneId) (s : State) :
    ∃ u : State, s.LaneTurn l u (f l u) (forEachLane f s) := by
  have spares : ∀ (k l : LaneId) (s : State), l ≠ k → s.Spares l (f k s) := fun k l s => (event k s).spares
  obtain ⟨before, after, split, early, late, apart⟩ := allLanes_split l
  obtain ⟨u, hu⟩ : ∃ u : State, u = before.foldl (fun s k => f k s) s := ⟨_, rfl⟩
  have whole : forEachLane f s = after.foldl (fun s k => f k s) (f l u) := by
    rw [forEachLane, split, List.foldl_append, List.foldl_cons, ← hu]
  have own := hu ▸ foldl_spares spares before early s
  have left := foldl_spares spares after late (f l u)
  refine ⟨u, ⟨own.lane, own.records⟩, fun l' ne => ?_, hu ▸ foldl_sameRest event before s, event l u, ?_⟩
  · by_cases h : l' ∈ before
    · have stands := (spares l l' u ne).trans (foldl_spares spares after (apart l' h) (f l u))
      exact .inr (whole ▸ ⟨stands.lane.symm, stands.records.symm⟩)
    · have stands := hu ▸ foldl_spares spares before h s
      exact .inl ⟨stands.lane, stands.records⟩
  · rw [whole]
    exact ⟨left.lane, left.records⟩

end turns

/-! ### Changes of the probe alone -/

/-- An event that changes the probe and nothing else. -/
def State.ProbeOnly (s t : State) : Prop := ∃ p : Probe, t = { s with probe := p }

theorem State.ProbeOnly.refl (s : State) : s.ProbeOnly s := ⟨s.probe, rfl⟩

theorem State.ProbeOnly.trans {s t u : State} (h : s.ProbeOnly t) (h' : t.ProbeOnly u) : s.ProbeOnly u := by
  obtain ⟨p, rfl⟩ := h
  obtain ⟨q, rfl⟩ := h'
  exact ⟨q, rfl⟩

theorem State.ProbeOnly.spares {s t : State} (h : s.ProbeOnly t) (l : LaneId) : s.Spares l t := by
  obtain ⟨p, rfl⟩ := h
  exact ⟨rfl, rfl⟩

theorem probeOnly_grantProbe (s : State) : s.ProbeOnly s.grantProbe := grantProbe_eq s

theorem probeOnly_freeProbe (s : State) : s.ProbeOnly s.freeProbe :=
  State.ProbeOnly.trans ⟨_, rfl⟩ (probeOnly_grantProbe _)

theorem probeOnly_requestProbe (s : State) (l : LaneId) (k : ProbeKind) : s.ProbeOnly (s.requestProbe l k) := by
  unfold State.requestProbe
  split
  · exact ⟨_, rfl⟩
  · exact State.ProbeOnly.trans ⟨_, rfl⟩ (probeOnly_grantProbe _)

theorem probeOnly_leaveProbe (s : State) (l : LaneId) : s.ProbeOnly (s.leaveProbe l) := by
  unfold State.leaveProbe
  dsimp only
  split
  · split
    · exact State.ProbeOnly.trans ⟨_, rfl⟩ (probeOnly_freeProbe _)
    · exact ⟨_, rfl⟩
  · exact ⟨_, rfl⟩

theorem probeOnly_abandonProbe (s : State) : s.ProbeOnly s.abandonProbe := by
  unfold State.abandonProbe
  split
  · exact probeOnly_freeProbe s
  · exact .refl s

theorem probeOnly_probeCount (s : State) (l : LaneId) (len : Nat) : s.ProbeOnly (s.probeCount l len) := by
  unfold State.probeCount
  split
  · split
    · exact ⟨_, rfl⟩
    · exact .refl s
  · exact .refl s
  · exact .refl s

/-! ### SET-LANE-MODE and an expiry at the other lanes -/

theorem spares_setMode (s : State) {k l : LaneId} (ne : l ≠ k) (m : Mode) (t : DrainTarget) :
    s.Spares l (s.setMode k m t) := (laneEvent_modLane s k _).spares ne

theorem spares_enterMonitor (s : State) {k l : LaneId} (ne : l ≠ k) : s.Spares l (s.enterMonitor k) :=
  (((laneEvent_removeLaneRecords s k).trans (laneEvent_modLane _ k _)).trans (laneEvent_recompute _ k)).spares ne

theorem spares_enterActive (s : State) {k l : LaneId} (ne : l ≠ k) : s.Spares l (s.enterActive k) :=
  ((laneEvent_modLane s k _).spares ne).trans ((probeOnly_requestProbe _ k _).spares l)

theorem spares_enterBypass (s : State) {k l : LaneId} (ne : l ≠ k) : s.Spares l (s.enterBypass k) :=
  (spares_setMode s ne _ _).trans ((probeOnly_leaveProbe _ k).spares l)

theorem spares_enterDraining (s : State) {k l : LaneId} (ne : l ≠ k) (t : DrainTarget) :
    s.Spares l (s.enterDraining k t) :=
  ((spares_setMode s ne _ _).trans ((probeOnly_leaveProbe _ k).spares l)).trans ((laneEvent_drain _ k).spares ne)

theorem spares_returnToActive (s : State) {k l : LaneId} (ne : l ≠ k) : s.Spares l (s.returnToActive k) :=
  ((spares_setMode s ne _ _).trans ((laneEvent_reevaluate _ k).spares ne)).trans (spares_enterActive _ ne)

theorem spares_changeMode {s t : State} {k l : LaneId} (ne : l ≠ k) {req : RequestedMode}
    (h : s.changeMode k req = some t) : s.Spares l t := by
  unfold State.changeMode at h
  split at h
  · cases h; exact .refl l s
  · cases h; exact spares_enterMonitor s ne
  · cases h
  · cases h; exact spares_enterBypass s ne
  · cases h; exact .refl l s
  · split at h
    · cases h; exact spares_enterActive s ne
    · cases h
  · split at h
    · cases h; exact spares_enterBypass s ne
    · cases h; exact spares_enterDraining s ne _
  · split at h
    · cases h; exact spares_setMode s ne _ _
    · cases h; exact spares_enterDraining s ne _
  · cases h; exact .refl l s
  · cases h; exact spares_setMode s ne _ _
  · cases h; exact spares_setMode s ne _ _
  · cases h; exact spares_returnToActive s ne
  · cases h; exact spares_setMode s ne _ _
  · cases h; exact spares_enterMonitor s ne
  · cases h

theorem laneEvent_failsafeRelease (s : State) (l : LaneId) : s.LaneEvent l (s.failsafeRelease l) :=
  (laneEvent_modLane s l _).trans (laneEvent_foldl_makeReady l _ _)

theorem pool_failsafeRelease (s : State) (l : LaneId) : (s.failsafeRelease l).pool = s.pool :=
  pool_foldl_makeReady l _ _

end Sys2Proof.Machine

/-! SUPPORT. The turn of one lane in an event that changes no mode, as the gate and the frozen records see it: the queue
only sheds entries from its head, on an ACTIVE lane alone, and a re-evaluation goes to its end (R26, R68, R91, R109). -/

namespace Sys2Proof.Machine

/-! ### What admission reads -/

/-- A record without what a recompute, the rewriter and the mark of a segment change. -/
def FlowRecord.core (r : FlowRecord) : FlowRecord := { r with seen := false, grant := 0, lastEdge := none }

/-- The records of a lane as admission sees them. -/
def State.ledger (s : State) (l : LaneId) : List FlowRecord := (s.records l).map FlowRecord.core

theorem n_eq_ledger (s : State) (l : LaneId) : s.n l = ((s.ledger l).filter (·.active)).length := by
  rw [State.ledger, List.filter_map, List.length_map]
  rfl

theorem c_eq_ledger (s : State) (l : LaneId) : s.c l = ((s.ledger l).map (·.expected)).sum := by
  rw [State.ledger, List.map_map]
  rfl

theorem recordActive_eq_ledger (s : State) (l : LaneId) (key : FlowKey) :
    s.recordActive l key = (((s.ledger l).find? fun r => r.key = key).any (·.active)) := by
  have found : s.findRecord l key = (s.records l).find? fun r => r.key = key := by
    rw [State.findRecord, State.records, List.find?_filter]
    congr 1
    funext r
    simp
  have core : ((s.ledger l).find? fun r => r.key = key) =
      ((s.records l).find? fun r => r.key = key).map FlowRecord.core := by
    rw [State.ledger, List.find?_map]
    rfl
  rw [core, State.recordActive, found]
  cases (s.records l).find? fun r => r.key = key <;> rfl

theorem ledger_of_records {s t : State} {l : LaneId} (h : t.records l = s.records l) : t.ledger l = s.ledger l := by
  rw [State.ledger, h]; rfl

theorem n_of_ledger {s t : State} {l : LaneId} (h : t.ledger l = s.ledger l) : t.n l = s.n l := by
  rw [n_eq_ledger, n_eq_ledger, h]

theorem c_of_ledger {s t : State} {l : LaneId} (h : t.ledger l = s.ledger l) : t.c l = s.c l := by
  rw [c_eq_ledger, c_eq_ledger, h]

/-- Admission reads the ledger, B, n_max and the overcommit of its lane alone (R105). -/
theorem passesAdmission_congr {s t : State} {l : LaneId} (ledger : t.ledger l = s.ledger l)
    (params : (t.lane l).params = (s.lane l).params) (budget : (t.lane l).budget = (s.lane l).budget)
    (nMax : (t.lane l).nMax = (s.lane l).nMax) (key : FlowKey) (cost : Nat) :
    t.passesAdmission l key cost = s.passesAdmission l key cost := by
  have limit : (t.lane l).admissionLimit = (s.lane l).admissionLimit := by
    rw [LaneState.admissionLimit, budget, params]; rfl
  have active : t.recordActive l key = s.recordActive l key := by
    rw [recordActive_eq_ledger, recordActive_eq_ledger, ledger]
  rw [State.passesAdmission, n_of_ledger ledger, c_of_ledger ledger, limit, active, nMax]
  rfl

theorem core_map {s t : State} {l : LaneId} {f : FlowRecord → FlowRecord} (pool : t.pool = s.pool.map f)
    (same : ∀ r : FlowRecord, (f r).core = r.core) : t.ledger l = s.ledger l := by
  have lane : ∀ r : FlowRecord, (f r).lane = r.lane := fun r => (congrArg FlowRecord.lane (same r) :)
  have records : t.records l = (s.records l).map f := by
    rw [State.records, pool, List.filter_map, State.records]
    congr 2
    funext r
    simp only [Function.comp_apply, lane]
  rw [State.ledger, records, List.map_map, State.ledger]
  exact List.map_congr_left fun r _ => same r

/-- A recompute writes grants, and nothing that admission reads of a record (R87). -/
theorem ledger_recompute (s : State) (k l : LaneId) : (s.recompute k).ledger l = s.ledger l :=
  core_map (State.pool_latchOverload _ k) fun r => by split <;> rfl

theorem ledger_setEdge (s : State) (k l : LaneId) (key : FlowKey) (edge : SeqNum) :
    (s.setEdge k key edge).ledger l = s.ledger l :=
  core_map rfl fun r => by split <;> rfl

/-! ### The queue -/

/-- A lane's queue with the held ticks aside. -/
abbrev LaneState.line (x : LaneState) : List QueueEntry := x.queue.map fun e => { e with heldTicks := 0 }

theorem line_of_queue {x y : LaneState} (h : y.queue = x.queue) : y.line = x.line := by rw [LaneState.line, h]

theorem line_suffix {x y : LaneState} (h : y.queue <:+ x.queue) : y.line <:+ x.line := h.map _

theorem line_eq_nil {x : LaneState} : x.line = [] ↔ x.queue = [] := List.map_eq_nil_iff

theorem line_tick (x : LaneState) : LaneState.line { x with queue := x.queue.map QueueEntry.tick } = x.line := by
  simp only [LaneState.line, List.map_map]
  rfl

/-- The queue of a lane is empty, or its head is GATED and fails admission: where a re-evaluation ends (R109). -/
def State.Blocked (l : LaneId) (t : State) : Prop :=
  ∀ (e : QueueEntry) (rest : List QueueEntry), (t.lane l).queue = e :: rest →
    ∃ d : ClassDecision, e.kind = .gated d ∧ t.passesAdmission l e.key d.cost = false

theorem blocked_of_empty {t : State} {l : LaneId} (h : (t.lane l).queue = []) : t.Blocked l :=
  fun e rest q => by rw [h] at q; cases q

/-- What leaves the head and everything that admission reads leaves a blocked queue blocked. -/
theorem State.Blocked.congr {s t : State} {l : LaneId} (h : s.Blocked l)
    (queue : ∀ e rest, (t.lane l).queue = e :: rest → ∃ rest', (s.lane l).queue = e :: rest')
    (ledger : t.ledger l = s.ledger l) (params : (t.lane l).params = (s.lane l).params)
    (budget : (t.lane l).budget = (s.lane l).budget) (nMax : (t.lane l).nMax = (s.lane l).nMax) : t.Blocked l := by
  intro e rest q
  obtain ⟨rest', q'⟩ := queue e rest q
  obtain ⟨d, kind, fails⟩ := h e rest' q'
  exact ⟨d, kind, (passesAdmission_congr ledger params budget nMax e.key d.cost).trans fails⟩

/-- A re-evaluation ends at an empty queue or a blocked head (R109). -/
theorem State.Reevaluated.blocked_end {force : Bool} {l : LaneId} {s t : State} {released : List QueueEntry}
    (h : s.Reevaluated force l released t) : t.Blocked l := by
  induction h with
  | empty queue => exact blocked_of_empty queue
  | blocked queue kind fails below =>
    intro e rest q
    rw [queue] at q
    obtain ⟨rfl, rfl⟩ := List.cons.inj q
    exact ⟨_, kind, fails⟩
  | follower _ _ _ ih => exact ih
  | admitted _ _ _ _ _ ih => exact ih
  | forced _ _ _ _ _ ih => exact ih

theorem blocked_reevaluateLoop {s : State} {l : LaneId} {n : Nat} (force : Bool) (mode : (s.lane l).mode = .active)
    (len : (s.lane l).queue.length ≤ n) : (State.reevaluateLoop force n l s).Blocked l := by
  obtain ⟨released, r⟩ := reevaluateLoop_reevaluated force l n s mode len
  exact r.blocked_end

theorem blocked_reevaluate {s : State} {l : LaneId} (mode : (s.lane l).mode = .active) : (s.reevaluate l).Blocked l := by
  rw [State.reevaluate, if_pos mode]
  exact blocked_reevaluateLoop false mode le_rfl

/-! ### One turn -/

/-- An event that gives the gate no cause on a lane: C and n do not fall, B does not rise, where `C` holds of the state
it started from, and no entry leaves the head of the queue, nor does an empty queue get one. -/
structure State.Rests (C : Prop) (l : LaneId) (s t : State) : Prop where
  numbers : C → s.c l ≤ t.c l ∧ s.n l ≤ t.n l ∧ (t.lane l).budget ≤ (s.lane l).budget
  line : (s.lane l).line <+: (t.lane l).line
  empty : (s.lane l).queue = [] → (t.lane l).queue = []

/-- All that an event which changes no mode does to a lane. `C` is what its numbers need of the state it starts from, `D`
what its records need where they are frozen. -/
structure State.Turn (C D : Prop) (l : LaneId) (s t : State) : Prop where
  mode : (t.lane l).mode = (s.lane l).mode
  target : (t.lane l).target = (s.lane l).target
  sheds : (t.lane l).line <:+ (s.lane l).line
  held : (s.lane l).mode ≠ .active → (t.lane l).line = (s.lane l).line
  steady : (s.lane l).mode = .active → t.Blocked l ∨ s.Rests C l t
  frozen : D → (s.lane l).mode.tracking = false → t.records l = s.records l

/-- An event that leaves of a lane all that the gate reads, and its records. -/
structure State.SameGate (l : LaneId) (s t : State) : Prop where
  mode : (t.lane l).mode = (s.lane l).mode
  target : (t.lane l).target = (s.lane l).target
  queue : (t.lane l).queue = (s.lane l).queue
  params : (t.lane l).params = (s.lane l).params
  budget : (t.lane l).budget = (s.lane l).budget
  nMax : (t.lane l).nMax = (s.lane l).nMax
  records : t.records l = s.records l

theorem State.Spares.sameGate {l : LaneId} {s t : State} (h : s.Spares l t) : s.SameGate l t := by
  have lane := h.lane
  exact ⟨by rw [lane], by rw [lane], by rw [lane], by rw [lane], by rw [lane], by rw [lane], h.records⟩

theorem State.SameGate.refl (l : LaneId) (s : State) : s.SameGate l s := (State.Spares.refl l s).sameGate

theorem State.SameGate.trans {l : LaneId} {s t u : State} (h : s.SameGate l t) (h' : t.SameGate l u) : s.SameGate l u :=
  ⟨h'.mode.trans h.mode, h'.target.trans h.target, h'.queue.trans h.queue, h'.params.trans h.params,
    h'.budget.trans h.budget, h'.nMax.trans h.nMax, h'.records.trans h.records⟩

theorem sameGate_probe (s : State) (l : LaneId) (p : Probe) : s.SameGate l { s with probe := p } :=
  ⟨rfl, rfl, rfl, rfl, rfl, rfl, rfl⟩

theorem sameGate_timer (s : State) (l : LaneId) (x : Timer) : s.SameGate l { s with timer := x } :=
  ⟨rfl, rfl, rfl, rfl, rfl, rfl, rfl⟩

theorem sameGate_latchEvent (s : State) (l : LaneId) (e : Event) : s.SameGate l (s.latchEvent e) :=
  ⟨rfl, rfl, rfl, rfl, rfl, rfl, rfl⟩

/-- An update of a lane in nothing that the gate reads. -/
theorem sameGate_modLane (s : State) (k l : LaneId) {f : LaneState → LaneState}
    (h : ∀ x : LaneState, (f x).mode = x.mode ∧ (f x).target = x.target ∧ (f x).queue = x.queue ∧
      (f x).params = x.params ∧ (f x).budget = x.budget ∧ (f x).nMax = x.nMax) : s.SameGate l (s.modLane k f) := by
  by_cases e : l = k
  · subst e
    obtain ⟨mode, target, queue, params, budget, nMax⟩ := h (s.lane l)
    refine ⟨?_, ?_, ?_, ?_, ?_, ?_, rfl⟩ <;> rw [State.lane_modLane_same]
    exacts [mode, target, queue, params, budget, nMax]
  · exact ((laneEvent_modLane s k f).spares e).sameGate

theorem sameGate_countLane (s : State) (k l : LaneId) (c : LaneCounter) : s.SameGate l (s.countLane k c) :=
  sameGate_modLane s k l fun _ => ⟨rfl, rfl, rfl, rfl, rfl, rfl⟩

section

variable {C D : Prop} {l : LaneId} {s t u : State}

theorem State.SameGate.rests (h : s.SameGate l t) : s.Rests C l t where
  numbers _ := ⟨(c_of_ledger (ledger_of_records h.records)).ge, (n_of_ledger (ledger_of_records h.records)).ge,
    h.budget.le⟩
  line := by rw [line_of_queue h.queue]
  empty := h.queue.trans

theorem State.SameGate.turn (h : s.SameGate l t) : s.Turn C D l t :=
  ⟨h.mode, h.target, by rw [line_of_queue h.queue], fun _ => line_of_queue h.queue, fun _ => .inr h.rests,
    fun _ _ => h.records⟩

theorem State.Turn.refl (s : State) : s.Turn C D l s := (State.SameGate.refl l s).turn

theorem State.Spares.turn (h : s.Spares l t) : s.Turn C D l t := h.sameGate.turn

theorem State.Rests.trans (h : s.Rests C l t) (h' : t.Rests C l u) : s.Rests C l u where
  numbers hc := by
    obtain ⟨c1, n1, b1⟩ := h.numbers hc
    obtain ⟨c2, n2, b2⟩ := h'.numbers hc
    exact ⟨c1.trans c2, n1.trans n2, b2.trans b1⟩
  line := h.line.trans h'.line
  empty := h'.empty ∘ h.empty

theorem State.Blocked.same (h : s.Blocked l) (g : s.SameGate l t) : t.Blocked l :=
  h.congr (fun _ rest q => ⟨rest, g.queue.symm.trans q⟩) (ledger_of_records g.records) g.params g.budget g.nMax

/-- What the gate does not read may change before a turn. -/
theorem State.SameGate.trans_turn (h : s.SameGate l t) (h' : t.Turn C D l u) : s.Turn C D l u where
  mode := h'.mode.trans h.mode
  target := h'.target.trans h.target
  sheds := line_of_queue h.queue ▸ h'.sheds
  held m := (h'.held (by rw [h.mode]; exact m)).trans (line_of_queue h.queue)
  steady m := (h'.steady (by rw [h.mode]; exact m)).imp_right h.rests.trans
  frozen d m := (h'.frozen d (by rw [h.mode]; exact m)).trans h.records

/-- And after it. -/
theorem State.Turn.trans_same (h : s.Turn C D l t) (h' : t.SameGate l u) : s.Turn C D l u where
  mode := h'.mode.trans h.mode
  target := h'.target.trans h.target
  sheds := by rw [line_of_queue h'.queue]; exact h.sheds
  held m := (line_of_queue h'.queue).trans (h.held m)
  steady m := (h.steady m).imp (·.same h') (·.trans h'.rests)
  frozen d m := h'.records.trans (h.frozen d m)

theorem State.ProbeOnly.sameGate (h : s.ProbeOnly t) (l : LaneId) : s.SameGate l t := (h.spares l).sameGate

end

/-! ### The hand-on and its kin -/

section

variable {C D : Prop}

theorem modes_reevaluateLoop (force : Bool) (n : Nat) (l : LaneId) (s : State) :
    ((State.reevaluateLoop force n l s).lane l).mode = (s.lane l).mode ∧
      ((State.reevaluateLoop force n l s).lane l).target = (s.lane l).target :=
  (stays_reevaluateLoop force n l (entries_any s)).modes l

/-- A re-evaluation of an ACTIVE lane, to its end. -/
theorem turn_reevaluateLoop (force : Bool) {n : Nat} {l : LaneId} {s : State} (mode : (s.lane l).mode = .active)
    (len : (s.lane l).queue.length ≤ n) : s.Turn C D l (State.reevaluateLoop force n l s) where
  mode := (modes_reevaluateLoop force n l s).1
  target := (modes_reevaluateLoop force n l s).2
  sheds := line_suffix (reevaluateLoop_queue force n l s).1
  held m := absurd mode m
  steady _ := .inl (blocked_reevaluateLoop force mode len)
  frozen _ m := by rw [mode] at m; cases m

/-- The last step of an event that changed no mode and no queue so far and gave the gate no cause on an ACTIVE lane. -/
theorem turn_of_numbers {l : LaneId} {s t : State} (mode : (t.lane l).mode = (s.lane l).mode)
    (target : (t.lane l).target = (s.lane l).target) (queue : (t.lane l).queue = (s.lane l).queue)
    (numbers : (s.lane l).mode = .active → C → s.c l ≤ t.c l ∧ s.n l ≤ t.n l ∧ (t.lane l).budget ≤ (s.lane l).budget)
    (frozen : D → (s.lane l).mode.tracking = false → t.records l = s.records l) : s.Turn C D l t :=
  ⟨mode, target, by rw [line_of_queue queue], fun _ => line_of_queue queue,
    fun m => .inr ⟨numbers m, by rw [line_of_queue queue], queue.trans⟩, frozen⟩

/-- A change of the state that ends in a re-evaluation where there is a cause. -/
theorem turn_of_cause {l : LaneId} {s w : State} (mode : (w.lane l).mode = (s.lane l).mode)
    (target : (w.lane l).target = (s.lane l).target) (queue : (w.lane l).queue = (s.lane l).queue) {cause : Prop}
    [Decidable cause] (numbers : (s.lane l).mode = .active → ¬ cause →
      C → s.c l ≤ w.c l ∧ s.n l ≤ w.n l ∧ (w.lane l).budget ≤ (s.lane l).budget)
    (frozen : D → (s.lane l).mode.tracking = false → w.records l = s.records l) :
    s.Turn C D l (if cause then w.reevaluate l else w) := by
  by_cases active : (s.lane l).mode = .active
  · split
    · rw [State.reevaluate, if_pos (mode.trans active)]
      have r := turn_reevaluateLoop (C := C) (D := D) false (mode.trans active) (le_refl (w.lane l).queue.length)
      refine ⟨r.mode.trans mode, r.target.trans target, line_of_queue queue ▸ r.sheds, fun m => absurd active m,
        fun _ => .inl (blocked_reevaluateLoop false (mode.trans active) le_rfl), fun _ m => ?_⟩
      rw [active] at m; cases m
    · rename_i none
      exact turn_of_numbers mode target queue (numbers · none) frozen
  · have still : w.reevaluate l = w := if_neg (by rw [mode]; exact active)
    rw [still, ite_self]
    exact turn_of_numbers mode target queue (fun m => absurd m active) frozen

/-- The hand-on of an event of the flow table (R68, R91, R109). -/
theorem turn_handOn {l : LaneId} {s u : State} (a : (s.lane l).Accounted (u.lane l))
    (frozen : D → (s.lane l).mode.tracking = false → u.records l = s.records l) : s.Turn C D l (u.handOn l s) := by
  have w := a.trans (accounted_afterActiveSet u l s)
  unfold State.handOn
  dsimp only
  refine turn_of_cause w.mode w.target w.queue (fun active none _ => ?_) fun d m => ?_
  · rw [a.mode, active] at none
    simp only [Mode.tracking, Bool.true_and, State.gateCause, Bool.or_eq_true, decide_eq_true_eq, not_or,
      not_lt] at none
    exact ⟨none.1.1, none.1.2, none.2⟩
  · have still : u.afterActiveSet l s = u := if_neg (by rw [a.mode, m]; exact Bool.false_ne_true)
    rw [still]
    exact frozen d m

/-- A recompute of its own (R91). -/
theorem turn_recomputeHandOn {l : LaneId} {s : State} (tracks : D → (s.lane l).mode.tracking = true) :
    s.Turn C D l (s.recomputeHandOn l) := by
  have w := accounted_recompute s l
  unfold State.recomputeHandOn
  dsimp only
  refine turn_of_cause w.mode w.target w.queue (fun _ none _ => ?_) fun d m => ?_
  · exact ⟨(c_of_ledger (ledger_recompute s l l)).ge, (n_of_ledger (ledger_recompute s l l)).ge, not_lt.mp none⟩
  · rw [tracks d] at m; cases m

/-- The turn of the lane on which an event acts is the turn of every lane. -/
theorem State.LaneEvent.turns {k : LaneId} {s t : State} {D : LaneId → Prop} (event : s.LaneEvent k t)
    (own : s.Turn C (D k) k t) (l : LaneId) : s.Turn C (D l) l t := by
  by_cases e : l = k
  · exact e ▸ own
  · exact (event.spares e).turn

/-- Every lane's turn, in an event that takes the lanes one after another. -/
theorem turn_forEachLane {f : LaneId → State → State} (event : ∀ (k : LaneId) (s : State), s.LaneEvent k (f k s))
    (own : ∀ (k : LaneId) (s : State), s.Turn C D k (f k s)) (s : State) (l : LaneId) :
    s.Turn C D l (forEachLane f s) := by
  obtain ⟨u, turn⟩ := laneTurn_forEachLane event l s
  have before : s.Spares l u := ⟨turn.before.1, turn.before.2⟩
  have after : (f l u).Spares l (forEachLane f s) := ⟨turn.after.1, turn.after.2⟩
  exact before.sameGate.trans_turn ((own l u).trans_same after.sameGate)

theorem laneEvent_rebaseLane (l : LaneId) (s : State) : s.LaneEvent l (State.rebaseLane l s) := by
  unfold State.rebaseLane
  split
  · exact laneEvent_recomputeHandOn s l
  · exact .refl l s

theorem turn_rebaseLane (l : LaneId) (s : State) : s.Turn C D l (State.rebaseLane l s) := by
  unfold State.rebaseLane
  split
  · rename_i tracks
    exact turn_recomputeHandOn fun _ => tracks
  · exact .refl s

theorem turn_flowTickLane (l : LaneId) (s : State) : s.Turn C D l (State.flowTickLane l s) := by
  unfold State.flowTickLane
  split
  · rename_i tracks
    exact turn_handOn (.refl _) fun _ m => by rw [tracks] at m; cases m
  · exact .refl s

theorem turn_gateTickLane (l : LaneId) (s : State) : s.Turn C D l (State.gateTickLane l s) := by
  unfold State.gateTickLane
  split
  · rename_i enforces
    obtain ⟨u, hu⟩ : ∃ u : State, u = s.modLane l fun x => { x with queue := x.queue.map QueueEntry.tick } := ⟨_, rfl⟩
    have lane : u.lane l = { s.lane l with queue := (s.lane l).queue.map QueueEntry.tick } := by
      rw [hu, State.lane_modLane_same]
    have line : (u.lane l).line = (s.lane l).line := by rw [lane]; exact line_tick (s.lane l)
    dsimp only
    rw [← hu]
    split
    · rename_i active
      have r := turn_reevaluateLoop (C := C) (D := D) (s := u) (l := l) (n := (s.lane l).queue.length) true
        (by rw [lane]; exact active) (by rw [lane]; exact (List.length_map _).le)
      refine ⟨r.mode.trans (by rw [lane]), r.target.trans (by rw [lane]), line ▸ r.sheds, fun m => absurd active m,
        fun _ => .inl (blocked_reevaluateLoop true (by rw [lane]; exact active) (by rw [lane]; exact (List.length_map _).le)),
        fun _ m => ?_⟩
      rw [active] at m; cases m
    · rename_i idle
      exact ⟨by rw [lane], by rw [lane], by rw [line], fun _ => line, fun m => absurd m idle,
        fun _ _ => by rw [hu]; rfl⟩
  · exact .refl s

/-! ### Timeouts and limits of one record -/

/-- In a canonical pool a slot holds one record (R54). -/
theorem eq_of_slot {n : Nat} {pool : List FlowRecord} (canonical : poolSlotsFrom n pool = true) :
    ∀ {a b : FlowRecord}, a ∈ pool → b ∈ pool → a.slot = b.slot → a = b := by
  have ge : ∀ {m : Nat} {p : List FlowRecord}, poolSlotsFrom m p = true → ∀ r ∈ p, m ≤ r.slot := by
    intro m p
    induction p generalizing m with
    | nil => intro _ r hr; cases hr
    | cons q rest ih =>
      intro h r hr
      simp only [poolSlotsFrom, Bool.and_eq_true, decide_eq_true_eq] at h
      obtain rfl | hr := List.mem_cons.mp hr
      · exact h.1.1
      · exact (h.1.1.trans (Nat.le_succ _)).trans (ih h.2 r hr)
  induction pool generalizing n with
  | nil => intro a _ ha; cases ha
  | cons r rest ih =>
    simp only [poolSlotsFrom, Bool.and_eq_true, decide_eq_true_eq] at canonical
    intro a b ha hb same
    have above := ge canonical.2
    cases ha with
    | head =>
      cases hb with
      | head => rfl
      | tail _ hb => have := above b hb; omega
    | tail _ ha =>
      cases hb with
      | head => have := above a ha; omega
      | tail _ hb => exact ih canonical.2 ha hb same

theorem silentRecord_spec {s : State} {slot : Nat} {r : FlowRecord} (h : s.silentRecord slot = some r) :
    r ∈ s.pool ∧ r.slot = slot ∧ (s.lane r.lane).mode.tracking = true ∧ r.seen = false ∧
      s.holds r.lane r.key = false := by
  unfold State.silentRecord at h
  split at h
  · rename_i r' found
    split at h
    · rename_i c
      cases h
      simp only [Bool.and_eq_true, Bool.not_eq_true'] at c
      exact ⟨List.mem_of_find?_eq_some found, by simpa using List.find?_some found, c.1.1, c.1.2, c.2⟩
    · cases h
  · cases h

/-- The limits of the record in one slot change nothing of the other lanes' records. -/
theorem records_limitSlot {s : State} (canonical : s.PoolCanonical) {r : FlowRecord} (mem : r ∈ s.pool) {l : LaneId}
    (ne : l ≠ r.lane) : (s.limitSlot r.slot).records l = s.records l := by
  have own : ∀ x ∈ s.pool, x.slot = r.slot → x.lane ≠ l := fun x hx e h =>
    ne (h.symm.trans (congrArg FlowRecord.lane (eq_of_slot canonical hx mem e)))
  unfold State.records State.limitSlot
  dsimp only
  generalize s.pool = pool at own ⊢
  induction pool with
  | nil => rfl
  | cons x rest ih =>
    have ih := ih fun y hy => own y (List.mem_cons_of_mem _ hy)
    rw [List.filterMap_cons]
    by_cases e : x.slot = r.slot
    · have other := own x List.mem_cons_self e
      rw [if_pos e, List.filter_cons_of_neg (by simpa using other)]
      cases limits : x.limits (s.lane x.lane).params with
      | none => exact ih
      | some y =>
        have lane : y.lane ≠ l := by rw [FlowRecord.limits_lane _ _ _ limits]; exact other
        dsimp only
        rw [List.filter_cons_of_neg (by simpa using lane)]
        exact ih
    · rw [if_neg e]
      dsimp only
      rw [List.filter_cons, List.filter_cons, ih]

theorem turn_limitEvent {s : State} {slot : Nat} {r : FlowRecord} (silent : s.silentRecord slot = some r)
    {D : LaneId → Prop} (canonical : C → s.PoolCanonical) (frozen : ∀ l : LaneId, D l → s.PoolCanonical) (l : LaneId) :
    s.Turn C (D l) l (s.limitEvent slot r) := by
  obtain ⟨mem, rfl, tracks, -, -⟩ := silentRecord_spec silent
  unfold State.limitEvent
  by_cases e : l = r.lane
  · subst e
    exact turn_handOn (.refl _) fun _ m => by rw [tracks] at m; cases m
  · have after := (laneEvent_handOn (s.limitSlot r.slot) r.lane s).spares e
    have lane : ((s.limitSlot r.slot).handOn r.lane s).lane l = s.lane l := after.lane
    have same : s.PoolCanonical → s.Spares l ((s.limitSlot r.slot).handOn r.lane s) := fun h =>
      ⟨lane, after.records.trans (records_limitSlot h mem e)⟩
    exact turn_of_numbers (by rw [lane]) (by rw [lane]) (by rw [lane])
      (fun _ hc => (same (canonical hc)).sameGate.rests.numbers hc) fun d _ => (same (frozen l d)).records

/-! ### The probe and the timer -/

theorem turn_completeProbe {s : State} (r : ProbeRequest) {D : LaneId → Prop}
    (served : ∀ l : LaneId, D l → (s.lane r.lane).mode.tracking = true) (l : LaneId) :
    s.Turn C (D l) l (s.completeProbe r) := by
  unfold State.completeProbe
  dsimp only
  refine State.Turn.trans_same ?_ (((sameGate_latchEvent _ l .probe).trans (sameGate_probe _ l _)).trans
    ((probeOnly_grantProbe _).sameGate l))
  split
  · have rated : ∀ l, s.SameGate l (s.modLane r.lane fun x => { x with
        rMeas := some (measuredRate s.probe.byteCount r.kind.window (s.lane r.lane).params.rNominal) }) := fun l =>
      sameGate_modLane s r.lane l fun _ => ⟨rfl, rfl, rfl, rfl, rfl, rfl⟩
    refine (rated l).trans_turn ((laneEvent_recomputeHandOn _ r.lane).turns (turn_recomputeHandOn fun d => ?_) l)
    rw [(rated r.lane).mode]
    exact served r.lane d
  · exact (sameGate_countLane s r.lane l _).turn

theorem turn_engineTick {s : State} {D : LaneId → Prop} (served : ∀ (l : LaneId) (r : ProbeRequest), D l →
      s.probe.engine.serving = some r → (s.lane r.lane).mode.tracking = true) (l : LaneId) :
    s.Turn C (D l) l s.engineTick := by
  unfold State.engineTick
  split
  · exact .refl s
  · exact (sameGate_probe s l _).turn
  · rename_i r engine
    unfold State.windowTick
    dsimp only
    split
    · refine (sameGate_probe s l _).trans_turn (turn_completeProbe r (fun l' d => ?_) l)
      exact served l' r d (by rw [engine]; rfl)
    · exact (sameGate_probe s l _).turn

theorem sameGate_intervalCount (s : State) (k l : LaneId) (f : LaneState → Nat) :
    s.SameGate l (s.modLane k fun x => { x with intervalCount := f x }) :=
  sameGate_modLane s k l fun _ => ⟨rfl, rfl, rfl, rfl, rfl, rfl⟩

theorem sameGate_intervalTick (k : LaneId) (s : State) (l : LaneId) : s.SameGate l (State.intervalTick k s) := by
  unfold State.intervalTick
  split
  · split
    · exact (sameGate_intervalCount s k l fun _ => 0).trans ((probeOnly_requestProbe _ k _).sameGate l)
    · exact sameGate_intervalCount s k l fun x => x.intervalCount + 1
  · exact .refl l s

/-- What no lane's turn changes for the gate, all of them together do not change. -/
theorem sameGate_forEachLane {f : LaneId → State → State} {l : LaneId}
    (h : ∀ (k : LaneId) (s : State), s.SameGate l (f k s)) (s : State) : s.SameGate l (forEachLane f s) :=
  forEachLane_keeps (P := s.SameGate l) (fun k u e => e.trans (h k u)) (.refl l s)

theorem turn_takeStaged (s : State) (l : LaneId) : s.Turn C D l s.takeStaged := by
  unfold State.takeStaged
  split
  · exact .refl s
  · rename_i p e _
    have timed := sameGate_timer s l { s.timer with prescale := p, epochDivisor := e, staged := none }
    have forgot := timed.trans (sameGate_forEachLane (fun k u => sameGate_modLane u k l
      (f := fun x => { x with rMeas := none }) fun _ => ⟨rfl, rfl, rfl, rfl, rfl, rfl⟩) _)
    have rebased := forgot.trans_turn (turn_forEachLane (C := C) (D := D) laneEvent_rebaseLane turn_rebaseLane _ l)
    exact rebased.trans_same ((probeOnly_abandonProbe _).sameGate l)

theorem turn_timerTick (s : State) (l : LaneId) : s.Turn C D l s.timerTick :=
  (sameGate_timer s l _).trans_turn (turn_takeStaged _ l)

/-- The report of an inbound segment (R13). -/
theorem turn_inboundSegment (s : State) (k : LaneId) (g : Segment) (l : LaneId) :
    s.Turn C D l (s.inboundSegment k g) := by
  unfold State.inboundSegment
  split
  · rename_i tracks
    refine State.Turn.trans_same (State.LaneEvent.turns (D := fun _ => D)
      ((laneEvent_reportSegment s k g).trans (laneEvent_handOn _ k s)) (turn_handOn (accounted_reportSegment s k g)
        fun _ m => ?_) l) ((probeOnly_probeCount _ k _).sameGate l)
    rw [tracks] at m; cases m
  · exact .refl s

end

end Sys2Proof.Machine

/-! SUPPORT. What the events that may change a mode do to their lane: the gate's stage of a segment, a drain, the release
of a whole queue, SET-LANE-MODE and an expiry (R14, R28, R33, R34, R104, R113, R116, R117). -/

namespace Sys2Proof.Machine

/-! ### A legal lane -/

/-- The bounds of one lane, but for a DRAINING lane that holds nothing any more (R20, R99, R104). -/
structure LaneState.Bounded (x : LaneState) : Prop where
  target : x.target = .none ↔ x.mode ≠ .draining
  length : x.queue.length ≤ Config.queueEntries
  idle : x.mode.enforcing = false → x.queue = []

/-- The bounds of one lane (R20, R33, R99, R104). -/
structure LaneState.GateLegal (x : LaneState) : Prop extends x.Bounded where
  holding : x.mode = .draining → x.queue ≠ []

theorem gateLegal_iff (s : State) : (∀ l : LaneId, (s.lane l).GateLegal) ↔ s.TargetsLegal ∧ s.QueuesLegal :=
  ⟨fun h => ⟨fun l => (h l).target, fun l => ⟨(h l).length, (h l).idle, (h l).holding⟩⟩,
    fun ⟨ht, hq⟩ l => ⟨⟨ht l, (hq l).1, (hq l).2.1⟩, (hq l).2.2⟩⟩

/-- A lane outside DRAINING with nothing held. -/
theorem gateLegal_of_empty {x : LaneState} (mode : x.mode ≠ .draining) (target : x.target = .none) (queue : x.queue = []) :
    x.GateLegal :=
  ⟨⟨iff_of_true target mode, by rw [queue]; exact Nat.zero_le _, fun _ => queue⟩, fun m => absurd m mode⟩

theorem length_le_of_line {x y : LaneState} (h : y.line <:+ x.line) : y.queue.length ≤ x.queue.length := by
  simpa using h.length_le

theorem queue_nil_of_line {x y : LaneState} (h : y.line <:+ x.line) (empty : x.queue = []) : y.queue = [] :=
  List.eq_nil_of_length_eq_zero (Nat.le_zero.mp ((length_le_of_line h).trans (by rw [empty]; exact Nat.zero_le _)))

/-- Entries that leave a lane in its mode leave it bounded. -/
theorem LaneState.Bounded.shed {x y : LaneState} (h : x.Bounded) (mode : y.mode = x.mode) (target : y.target = x.target)
    (line : y.line <:+ x.line) : y.Bounded where
  target := by rw [target, mode]; exact h.target
  length := (length_le_of_line line).trans h.length
  idle m := queue_nil_of_line line (h.idle (by rw [← mode]; exact m))

theorem queueCells_eq_line (x : LaneState) : queueCells x.queue = (x.line.map fun e => cellsOf e.frame.length).sum := by
  rw [queueCells, List.map_map]
  rfl

/-- What an event other than an append does to a lane: a legal lane stays legal, and entries only leave. -/
structure LaneState.Sheds (x y : LaneState) : Prop where
  legal : x.GateLegal → y.GateLegal
  line : y.line <:+ x.line

theorem LaneState.Sheds.refl (x : LaneState) : x.Sheds x := ⟨id, List.suffix_refl _⟩

theorem LaneState.Sheds.trans {x y z : LaneState} (h : x.Sheds y) (h' : y.Sheds z) : x.Sheds z :=
  ⟨h'.legal ∘ h.legal, h'.line.trans h.line⟩

theorem LaneState.Sheds.cells {x y : LaneState} (h : x.Sheds y) : queueCells y.queue ≤ queueCells x.queue := by
  rw [queueCells_eq_line, queueCells_eq_line]
  exact (h.line.sublist.map _).sum_le_sum fun _ _ => Nat.zero_le _

/-- The bounds of the whole gate: each lane's, and the frame store's (R99). -/
structure State.GateBounds (s : State) : Prop where
  lanes : ∀ l : LaneId, (s.lane l).GateLegal
  store : s.StoreWithin

theorem State.GateBounds.sheds {s t : State} (h : s.GateBounds) (lanes : ∀ l : LaneId, (s.lane l).Sheds (t.lane l)) :
    t.GateBounds where
  lanes l := (lanes l).legal (h.lanes l)
  store := (List.sum_le_sum fun l _ => (lanes l).cells).trans h.store

theorem State.Turn.sheds_lane {C D : Prop} {l : LaneId} {s t : State} (h : s.Turn C D l t) :
    (s.lane l).Sheds (t.lane l) where
  legal x := ⟨x.toBounded.shed h.mode h.target h.sheds, fun m e => by
    have draining : (s.lane l).mode = .draining := h.mode.symm.trans m
    have same := h.held (by rw [draining]; decide)
    exact x.holding draining (line_eq_nil.mp (same ▸ line_eq_nil.mpr e))⟩
  line := h.sheds

theorem State.SameGate.sheds {l : LaneId} {s t : State} (h : s.SameGate l t) : (s.lane l).Sheds (t.lane l) :=
  (h.turn (C := True) (D := True)).sheds_lane

theorem State.Spares.sheds {l : LaneId} {s t : State} (h : s.Spares l t) : (s.lane l).Sheds (t.lane l) :=
  h.sameGate.sheds

/-- A change of one lane's queue changes the cells in use by as much. -/
theorem usedCells_of_lane {s t : State} {k : LaneId} (h : ∀ l : LaneId, l ≠ k → t.lane l = s.lane l) :
    t.usedCells + s.laneCells k = s.usedCells + t.laneCells k := by
  have sum : ∀ u : State, u.usedCells = ∑ l : LaneId, u.laneCells l := fun u => by
    simp [State.usedCells, allLanes, Fin.sum_univ_eight, add_assoc]
  have others : ∑ l ∈ Finset.univ.erase k, t.laneCells l = ∑ l ∈ Finset.univ.erase k, s.laneCells l :=
    Finset.sum_congr rfl fun l hl => by rw [State.laneCells, h l (Finset.ne_of_mem_erase hl), State.laneCells]
  have split : ∀ u : State, u.usedCells = ∑ l ∈ Finset.univ.erase k, u.laneCells l + u.laneCells k := fun u =>
    (sum u).trans (Finset.sum_erase_add _ _ (Finset.mem_univ k)).symm
  rw [split, split, others]
  omega

/-! ### Modes that are left -/

/-- A lane's mode stands, or the lane leaves DRAINING for its target (R33). -/
def LaneState.LeavesDrain (x y : LaneState) : Prop := y.mode = x.mode ∨ (x.mode = .draining ∧ y.mode ≠ .active)

theorem LaneState.LeavesDrain.trans {x y z : LaneState} (h : x.LeavesDrain y) (h' : y.LeavesDrain z) :
    x.LeavesDrain z := by
  obtain h | h := h
  · exact h'.imp (·.trans h) fun c => ⟨h.symm.trans c.1, c.2⟩
  · obtain e | c := h'
    · exact .inr ⟨h.1, by rw [e]; exact h.2⟩
    · exact .inr ⟨h.1, c.2⟩

theorem leavesDrain_finishDrain (s : State) (l : LaneId) : (s.lane l).LeavesDrain ((s.finishDrain l).lane l) := by
  rw [finishDrain_lane]
  split
  · rename_i c
    refine .inr ⟨c.1, ?_⟩
    dsimp only
    split <;> decide
  · exact .inl rfl

/-- The end of a drain makes a bounded lane legal. -/
theorem gateLegal_finishDrain {s : State} {l : LaneId} (h : (s.lane l).Bounded) : ((s.finishDrain l).lane l).GateLegal := by
  rw [finishDrain_lane]
  split
  · rename_i c
    refine gateLegal_of_empty ?_ rfl c.2
    dsimp only
    split <;> decide
  · rename_i c
    exact ⟨h, fun m e => c ⟨m, e⟩⟩

/-! ### What passing a frame out leaves -/

theorem arbiter_addReady (x : LaneState) (f : Frame) : ∃ (o : Option Frame) (r : List Frame),
    x.addReady f = { x with output := o, ready := r } := by
  unfold LaneState.addReady LaneState.startReady
  split
  · exact ⟨_, _, rfl⟩
  · exact ⟨_, _, rfl⟩

theorem lane_rewrite (s : State) (l : LaneId) (f : Frame) : ∃ c : LaneCounters,
    (s.rewrite l f).2.lane l = { s.lane l with counters := c } := by
  unfold State.rewrite
  split
  · exact ⟨_, rfl⟩
  · split
    · exact ⟨_, rfl⟩
    · exact ⟨_, State.lane_countLane_same s l _⟩
    · exact ⟨_, rfl⟩
    · exact ⟨_, State.lane_countLane_same (s.setEdge l _ _) l _⟩

theorem ledger_rewrite (s : State) (l k : LaneId) (f : Frame) : (s.rewrite l f).2.ledger k = s.ledger k := by
  unfold State.rewrite
  split
  · rfl
  · split
    · rfl
    · rfl
    · exact ledger_setEdge s l k _ _
    · exact ledger_setEdge s l k _ _

/-- A frame that passes out changes the arbiter and the counters of its lane, and nothing that admission reads. -/
theorem passOut_stands (s : State) (l : LaneId) (f : Frame) : (∃ (c : LaneCounters) (o : Option Frame) (r : List Frame),
    (s.passOut l f).lane l = { s.lane l with counters := c, output := o, ready := r }) ∧
      (s.passOut l f).ledger l = s.ledger l := by
  unfold State.passOut
  split
  · obtain ⟨c, hc⟩ := lane_rewrite s l f
    obtain ⟨o, r, hr⟩ := arbiter_addReady ((s.rewrite l f).2.lane l) (s.rewrite l f).1
    refine ⟨⟨c, o, r, ?_⟩, ledger_rewrite s l l f⟩
    rw [lane_makeReady_same, hr, hc]
  · obtain ⟨o, r, hr⟩ := arbiter_addReady (s.lane l) f
    exact ⟨⟨_, o, r, (lane_makeReady_same s l f).trans hr⟩, rfl⟩

/-! ### A lane whose queue is released whole -/

/-- Every entry of a lane has left, in the lane's mode. -/
structure State.Emptied (l : LaneId) (s t : State) : Prop where
  mode : (t.lane l).mode = (s.lane l).mode
  target : (t.lane l).target = (s.lane l).target
  queue : (t.lane l).queue = []

/-- With the end of the drain that it brings, the lane is legal where it was, and ACTIVE only where it was. -/
theorem State.Emptied.finished {l : LaneId} {s t : State} (h : s.Emptied l t) :
    (s.lane l).Sheds ((t.finishDrain l).lane l) ∧ (s.lane l).LeavesDrain ((t.finishDrain l).lane l) ∧
      ((t.finishDrain l).lane l).queue = [] := by
  have empty : ((t.finishDrain l).lane l).queue = [] := (finishDrain_queue t l).trans h.queue
  have line : (t.lane l).line <:+ (s.lane l).line := by rw [line_eq_nil.mpr h.queue]; exact List.nil_suffix
  refine ⟨⟨fun x => gateLegal_finishDrain (x.toBounded.shed h.mode h.target line), ?_⟩, ?_, empty⟩
  · rw [line_eq_nil.mpr empty]; exact List.nil_suffix
  · exact LaneState.LeavesDrain.trans (.inl h.mode) (leavesDrain_finishDrain t l)

theorem emptied_releaseAll (s : State) (l : LaneId) : s.Emptied l (s.releaseAll l) :=
  ⟨(releaseAll_modes s l).1, (releaseAll_modes s l).2, (releaseAll_queue s l).1⟩

/-- The overflow flush, but for the end of the drain (R113). -/
theorem overflowFlush_eq (s : State) (l : LaneId) (kind : EntryKind) (key : FlowKey) (f : Frame) :
    ∃ t : State, s.Emptied l t ∧ s.overflowFlush l kind key f = t.finishDrain l := by
  refine ⟨_, ?_, rfl⟩
  have released := emptied_releaseAll s l
  have account := accounted_account (s.releaseAll l) l ⟨kind, key, f, 0⟩
  obtain ⟨⟨c, o, r, passed⟩, -⟩ := passOut_stands ((s.releaseAll l).account l ⟨kind, key, f, 0⟩) l f
  refine ⟨?_, ?_, ?_⟩ <;> rw [State.lane_latchEvent, State.lane_countLane_same, passed]
  · exact account.mode.trans released.mode
  · exact account.target.trans released.target
  · exact account.queue.trans released.queue

/-! ### The gate's stage of a segment -/

/-- All that the gate's stage of an outbound segment does to its lane: the frame is appended behind an entry of its
connection, or as a request that must wait; or the queue is flushed; or the frame passes out, which on an ACTIVE lane
leaves what admission reads, or finds nothing held (R101, R103, R104, R113). -/
inductive State.GateArrived (s : State) (l : LaneId) : State → Prop where
  | appended {t : State} (e : QueueEntry) (c : LaneCounters) (enforces : (s.lane l).mode.enforcing = true)
      (room : s.roomFor l e.frame = true)
      (reason : (s.lane l).queue ≠ [] ∨ ∃ d : ClassDecision, e.kind = .gated d ∧
        s.passesAdmission l e.key d.cost = false)
      (lane : t.lane l = { s.lane l with queue := (s.lane l).queue ++ [e], counters := c }) (pool : t.pool = s.pool) :
      GateArrived s l t
  | flushed {t u : State} (emptied : s.Emptied l u) (finished : t = u.finishDrain l) : GateArrived s l t
  | passed {t : State} (mode : (t.lane l).mode = (s.lane l).mode) (target : (t.lane l).target = (s.lane l).target)
      (queue : (t.lane l).queue = (s.lane l).queue) (params : (t.lane l).params = (s.lane l).params)
      (quiet : (s.lane l).mode = .active → (s.lane l).queue = [] ∨ (t.ledger l = s.ledger l ∧
        (t.lane l).budget = (s.lane l).budget ∧ (t.lane l).nMax = (s.lane l).nMax)) : GateArrived s l t

theorem lane_appendEntry (s : State) (l : LaneId) (kind : EntryKind) (key : FlowKey) (f : Frame) : ∃ c : LaneCounters,
    (s.appendEntry l kind key f).lane l =
      { s.lane l with queue := (s.lane l).queue ++ [⟨kind, key, f, 0⟩], counters := c } := by
  unfold State.appendEntry
  obtain ⟨c, counted⟩ := State.lane_countLane (s.modLane l fun x => { x with queue := x.queue ++ [⟨kind, key, f, 0⟩] }) l l
    (match kind with
     | .gated _ => .gated
     | .follower => .followed)
  exact ⟨c, counted.trans (by rw [State.lane_modLane_same])⟩

theorem gateArrived_hold {s : State} {l : LaneId} {kind : EntryKind} {key : FlowKey} {f : Frame}
    (enforces : (s.lane l).mode.enforcing = true) (reason : (s.lane l).queue ≠ [] ∨
      ∃ d : ClassDecision, kind = .gated d ∧ s.passesAdmission l key d.cost = false) :
    s.GateArrived l (s.hold l kind key f) := by
  unfold State.hold
  split
  · rename_i room
    obtain ⟨c, lane⟩ := lane_appendEntry s l kind key f
    exact .appended ⟨kind, key, f, 0⟩ c enforces room reason lane rfl
  · obtain ⟨t, emptied, eq⟩ := overflowFlush_eq s l kind key f
    exact .flushed emptied eq

theorem gateArrived_gateArrival (s : State) (l : LaneId) (g : Segment) (f : Frame) (start : Bool) (d : ClassDecision) :
    s.GateArrived l (s.gateArrival l g f start d) := by
  unfold State.gateArrival
  split
  · rename_i c
    rw [Bool.and_eq_true] at c
    refine gateArrived_hold c.1 (.inl fun e => ?_)
    have held := c.2
    rw [State.holds, e] at held
    cases held
  · split
    · split
      · rename_i c
        refine gateArrived_hold (by rw [c.1]; rfl) ?_
        by_cases empty : (s.lane l).queue = []
        · exact .inr ⟨d, rfl, Bool.eq_false_iff.mpr fun pass => c.2 ⟨empty, pass⟩⟩
        · exact .inl empty
      · rename_i c
        have charged := accounted_charge s l g.key d
        obtain ⟨⟨k, o, r, lane⟩, -⟩ := passOut_stands (s.charge l g.key d) l f
        refine .passed ?_ ?_ ?_ ?_ fun active => .inl (not_not.mp fun h => c ⟨active, fun e => h e.1⟩) <;> rw [lane]
        exacts [charged.mode, charged.target, charged.queue, charged.params]
    · obtain ⟨⟨k, o, r, lane⟩, ledger⟩ := passOut_stands s l f
      refine .passed ?_ ?_ ?_ ?_ fun _ => .inr ⟨ledger, ?_, ?_⟩ <;> rw [lane]

section

variable {s t : State} {l : LaneId}

theorem State.GateArrived.leavesDrain (h : s.GateArrived l t) : (s.lane l).LeavesDrain (t.lane l) := by
  cases h with
  | appended e c _ _ _ lane _ => exact .inl (by rw [lane])
  | flushed emptied finished => exact finished ▸ emptied.finished.2.1
  | passed mode _ _ _ _ => exact .inl mode

/-- The gate's stage keeps the bounds of the gate (R99, R104). -/
theorem State.GateArrived.bounds (h : s.GateArrived l t) (event : s.LaneEvent l t) (hs : s.GateBounds) :
    t.GateBounds := by
  have others : ∀ l' : LaneId, l' ≠ l → (s.lane l').Sheds (t.lane l') := fun l' ne => (event.spares ne).sheds
  have shedding : (s.lane l).Sheds (t.lane l) → t.GateBounds := fun own => hs.sheds fun l' => by
    by_cases e : l' = l
    · exact e ▸ own
    · exact others l' e
  cases h with
  | appended e c enforces room _ lane _ =>
    simp only [State.roomFor, Bool.and_eq_true, decide_eq_true_eq] at room
    have legal := hs.lanes l
    refine ⟨fun l' => ?_, ?_⟩
    · by_cases e' : l' = l
      · subst e'
        rw [lane]
        refine ⟨⟨legal.target, ?_, fun m => ?_⟩, fun _ => by simp⟩
        · rw [List.length_append, List.length_singleton]; exact room.1
        · exact absurd (enforces.symm.trans m) Bool.noConfusion
      · exact (others l' e').legal (hs.lanes l')
    · have sum := usedCells_of_lane event.lanes
      have more : t.laneCells l = s.laneCells l + cellsOf e.frame.length := by
        rw [State.laneCells, lane]
        simp [State.laneCells, queueCells]
      have store := hs.store
      have fits := room.2
      simp only [State.StoreWithin, State.freeCells] at *
      omega
  | flushed emptied finished => exact shedding (finished ▸ emptied.finished.1)
  | passed mode target queue _ _ =>
    refine shedding ⟨fun x => ⟨x.toBounded.shed mode target (by rw [line_of_queue queue]), fun m => ?_⟩,
      by rw [line_of_queue queue]⟩
    rw [queue]
    exact x.holding (mode.symm.trans m)

/-- On a lane ACTIVE after it, the gate's stage leaves the head blocked, or as the event found it with no cause for a
re-evaluation (R101, R109). -/
theorem State.GateArrived.steady {C : Prop} {before : State} (h : s.GateArrived l t) (active : (t.lane l).mode = .active)
    (hs : s.Blocked l ∨ before.Rests C l s) : t.Blocked l ∨ before.Rests C l t := by
  cases h with
  | appended e c _ _ reason lane pool =>
    have ledger : t.ledger l = s.ledger l := ledger_of_records (by rw [State.records, pool]; rfl)
    cases queue : (s.lane l).queue with
    | nil =>
      obtain more | ⟨d, kind, fails⟩ := reason
      · exact absurd queue more
      · refine .inl fun e' rest q => ?_
        rw [lane, queue] at q
        obtain ⟨rfl, -⟩ := List.cons.inj q
        exact ⟨d, kind, (passesAdmission_congr ledger (by rw [lane]) (by rw [lane]) (by rw [lane]) _ _).trans fails⟩
    | cons x rest =>
      refine hs.imp (fun b => ?_) fun r => ?_
      · refine b.congr (fun e' rest' q => ?_) ledger (by rw [lane]) (by rw [lane]) (by rw [lane])
        rw [lane, queue] at q
        obtain ⟨rfl, -⟩ := List.cons.inj q
        exact ⟨rest, queue⟩
      · refine r.trans ⟨fun _ => ⟨(c_of_ledger ledger).ge, (n_of_ledger ledger).ge, by rw [lane]⟩, ?_, fun none => ?_⟩
        · rw [lane, LaneState.line, LaneState.line, List.map_append]
          exact List.prefix_append _ _
        · rw [queue] at none; cases none
  | flushed emptied finished => exact .inl (blocked_of_empty (finished ▸ emptied.finished.2.2))
  | passed mode _ queue params quiet =>
    obtain empty | ⟨ledger, budget, nMax⟩ := quiet (mode.symm.trans active)
    · exact .inl (blocked_of_empty (queue.trans empty))
    · refine hs.imp (fun b => ?_) fun r => ?_
      · exact b.congr (fun _ rest q => ⟨rest, queue.symm.trans q⟩) ledger params budget nMax
      · exact r.trans ⟨fun _ => ⟨(c_of_ledger ledger).ge, (n_of_ledger ledger).ge, budget.le⟩,
          by rw [line_of_queue queue], queue.trans⟩

end

/-! ### A drain -/

/-- A drain release of a DRAINING lane, with the end of the drain where it was the last (R33, R117). -/
theorem sheds_drainRelease {s : State} {l : LaneId} (due : (s.lane l).drainDue = true) :
    (s.lane l).Sheds (((s.releaseHead l).finishDrain l).lane l) := by
  simp only [LaneState.drainDue, decide_eq_true_eq] at due
  cases queue : (s.lane l).queue with
  | nil => exact absurd queue due.2.2
  | cons e rest =>
    obtain ⟨hq, -, -⟩ := releaseHead_spec s l e rest queue
    obtain ⟨hm, ht⟩ := (stays_releaseHead (l := l) (entries_any s)).modes l
    have line : ((s.releaseHead l).lane l).line <:+ (s.lane l).line :=
      line_suffix (by rw [hq, queue]; exact List.suffix_cons e rest)
    refine ⟨fun x => gateLegal_finishDrain (x.toBounded.shed hm ht line), ?_⟩
    rw [line_of_queue (finishDrain_queue (s.releaseHead l) l)]
    exact line

theorem drainLoop_leaves (n : Nat) (l : LaneId) : ∀ s : State,
    (s.lane l).Sheds ((State.drainLoop n l s).lane l) ∧ (s.lane l).LeavesDrain ((State.drainLoop n l s).lane l) := by
  induction n with
  | zero => exact fun s => ⟨.refl _, .inl rfl⟩
  | succ n ih =>
    intro s
    unfold State.drainLoop
    split
    · rename_i due
      obtain ⟨sheds, leaves⟩ := ih ((s.releaseHead l).finishDrain l)
      have mode := ((stays_releaseHead (l := l) (entries_any s)).modes l).1
      exact ⟨(sheds_drainRelease due).trans sheds,
        (LaneState.LeavesDrain.trans (.inl mode) (leavesDrain_finishDrain _ l)).trans leaves⟩
    · exact ⟨.refl _, .inl rfl⟩

theorem drain_leaves (s : State) (l : LaneId) :
    (s.lane l).Sheds ((s.drain l).lane l) ∧ (s.lane l).LeavesDrain ((s.drain l).lane l) := drainLoop_leaves _ l s

/-! ### SET-LANE-MODE -/

section

variable {s : State} {l : LaneId}

theorem lane_setMode (s : State) (l : LaneId) (m : Mode) (t : DrainTarget) :
    (s.setMode l m t).lane l = { s.lane l with mode := m, target := t } := State.lane_modLane_same s l _

/-- An entry to a mode that holds nothing, with nothing held. -/
theorem sheds_of_rest {x y : LaneState} (mode : y.mode ≠ .draining) (target : y.target = .none) (queue : y.queue = x.queue)
    (empty : x.GateLegal → x.queue = []) : x.Sheds y :=
  ⟨fun h => gateLegal_of_empty mode target (queue.trans (empty h)), by rw [line_of_queue queue]⟩

theorem lane_enterMonitor (s : State) (l : LaneId) : LaneState.Accounted { s.lane l with
    mode := .monitor, target := .none, rMeas := none, intervalCount := 0 } ((s.enterMonitor l).lane l) := by
  have a := accounted_recompute ((s.removeLaneRecords l).modLane l fun x => { x with
    mode := .monitor, target := .none, rMeas := none, intervalCount := 0 }) l
  rwa [State.lane_modLane_same] at a

theorem lane_enterActive (s : State) (l : LaneId) : (s.enterActive l).lane l =
    { s.lane l with mode := .active, target := .none, intervalCount := 0 } :=
  ((probeOnly_requestProbe _ l _).spares l).lane.trans (State.lane_modLane_same s l _)

theorem lane_enterBypass (s : State) (l : LaneId) : (s.enterBypass l).lane l =
    { s.lane l with mode := .bypass, target := .none } :=
  ((probeOnly_leaveProbe _ l).spares l).lane.trans (lane_setMode s l _ _)

theorem lane_leftForDrain (s : State) (l : LaneId) (t : DrainTarget) :
    (((s.setMode l .draining t).leaveProbe l).lane l) = { s.lane l with mode := .draining, target := t } :=
  ((probeOnly_leaveProbe _ l).spares l).lane.trans (lane_setMode s l _ _)

/-- What SET-LANE-MODE does to its lane as the gate sees it; where it leaves the lane ACTIVE, it changed nothing, or the
re-evaluation went to its end, or the lane came from MONITOR with its queue (R28, R118). -/
structure State.ModeChanged (l : LaneId) (s t : State) : Prop where
  sheds : (s.lane l).Sheds (t.lane l)
  active : (t.lane l).mode = .active → t = s ∨ t.Blocked l ∨
    ((s.lane l).mode = .monitor ∧ (t.lane l).queue = (s.lane l).queue)

theorem modeChanged_of_inactive {t : State} (sheds : (s.lane l).Sheds (t.lane l)) (mode : (t.lane l).mode ≠ .active) :
    s.ModeChanged l t := ⟨sheds, fun m => absurd m mode⟩

theorem modeChanged_enterMonitor (mode : (s.lane l).mode.enforcing = false) : s.ModeChanged l (s.enterMonitor l) := by
  have a := lane_enterMonitor s l
  refine modeChanged_of_inactive (sheds_of_rest (by rw [a.mode]; nofun) a.target a.queue fun h => h.idle mode) ?_
  rw [a.mode]
  nofun

theorem modeChanged_enterBypass (mode : (s.lane l).GateLegal → (s.lane l).queue = []) :
    s.ModeChanged l (s.enterBypass l) := by
  have lane := lane_enterBypass s l
  exact modeChanged_of_inactive (sheds_of_rest (by rw [lane]; nofun) (by rw [lane]) (by rw [lane]) mode)
    (by rw [lane]; nofun)

theorem modeChanged_enterActive (mode : (s.lane l).mode = .monitor) : s.ModeChanged l (s.enterActive l) := by
  have lane := lane_enterActive s l
  exact ⟨sheds_of_rest (by rw [lane]; nofun) (by rw [lane]) (by rw [lane]) fun h => h.idle (by rw [mode]; rfl),
    fun _ => .inr (.inr ⟨mode, by rw [lane]⟩)⟩

theorem modeChanged_enterDraining {t : DrainTarget} (target : t ≠ .none) (queue : (s.lane l).queue ≠ []) :
    s.ModeChanged l (s.enterDraining l t) := by
  have lane := lane_leftForDrain s l t
  obtain ⟨sheds, leaves⟩ := drain_leaves ((s.setMode l .draining t).leaveProbe l) l
  rw [lane] at sheds leaves
  have entered : (s.lane l).Sheds { s.lane l with mode := .draining, target := t } :=
    ⟨fun h => ⟨⟨iff_of_false target (fun h => h rfl), h.length, fun m => nomatch m⟩, fun _ => queue⟩, List.suffix_refl _⟩
  refine modeChanged_of_inactive (entered.trans sheds) fun m => ?_
  obtain e | c := leaves
  · rw [State.enterDraining, e] at m; cases m
  · exact c.2 m

theorem modeChanged_returnToActive (s : State) (l : LaneId) : s.ModeChanged l (s.returnToActive l) := by
  obtain ⟨u, hu⟩ : ∃ u : State, u = (s.setMode l .active .none).reevaluate l := ⟨_, rfl⟩
  have lane := lane_enterActive u l
  have active : ((s.setMode l .active .none).lane l).mode = .active := by rw [lane_setMode]
  have eq : u = State.reevaluateLoop false ((s.setMode l .active .none).lane l).queue.length l
      (s.setMode l .active .none) := hu.trans (if_pos active)
  have suffix : (u.lane l).queue <:+ (s.lane l).queue := by
    have h := (reevaluateLoop_queue false ((s.setMode l .active .none).lane l).queue.length l
      (s.setMode l .active .none)).1
    rw [← eq] at h
    rwa [lane_setMode] at h
  have blocked : u.Blocked l := hu ▸ blocked_reevaluate active
  have whole : s.returnToActive l = u.enterActive l := by rw [hu]; rfl
  rw [whole]
  refine ⟨⟨fun h => ⟨⟨iff_of_true (by rw [lane]) (by rw [lane]; nofun), ?_, fun m => ?_⟩, fun m => ?_⟩, ?_⟩,
    fun _ => .inr (.inl ?_)⟩
  · rw [lane]; exact suffix.length_le.trans h.length
  · rw [lane] at m; cases m
  · rw [lane] at m; cases m
  · rw [lane]; exact line_suffix suffix
  · have records : (u.enterActive l).records l = u.records l := ((probeOnly_requestProbe _ l _).spares l).records
    exact blocked.congr (fun e rest q => ⟨rest, by rw [lane] at q; exact q⟩) (ledger_of_records records) (by rw [lane])
      (by rw [lane]) (by rw [lane])

/-- SET-LANE-MODE by the rows of its table (R28). -/
theorem modeChanged_changeMode {t : State} {req : RequestedMode} (h : s.changeMode l req = some t) :
    s.ModeChanged l t := by
  have same : s.ModeChanged l s := ⟨.refl _, fun _ => .inl rfl⟩
  have retarget : ∀ target : DrainTarget, target ≠ .none → (s.lane l).mode = .draining →
      s.ModeChanged l (s.setMode l .draining target) := fun target some mode => by
    refine modeChanged_of_inactive ⟨fun h => ?_, ?_⟩ ?_ <;> rw [lane_setMode]
    · exact ⟨⟨iff_of_false some (fun h => h rfl), h.length, fun m => nomatch m⟩, fun _ => h.holding mode⟩
    · nofun
  have rest : ∀ m : Mode, m ≠ .draining → m ≠ .active → ((s.lane l).GateLegal → (s.lane l).queue = []) →
      s.ModeChanged l (s.setMode l m .none) := fun m drain active empty => by
    have lane := lane_setMode s l m .none
    exact modeChanged_of_inactive (sheds_of_rest (by rw [lane]; exact drain) (by rw [lane]) (by rw [lane]) empty)
      (by rw [lane]; exact active)
  unfold State.changeMode at h
  split at h
  · cases h; exact same
  · rename_i m; cases h; exact modeChanged_enterMonitor (by rw [m]; rfl)
  · cases h
  · rename_i m; cases h; exact modeChanged_enterBypass fun x => x.idle (by rw [m]; rfl)
  · cases h; exact same
  · rename_i m
    split at h
    · cases h; exact modeChanged_enterActive m
    · cases h
  · split at h
    · rename_i empty; cases h; exact modeChanged_enterBypass fun _ => empty
    · rename_i more; cases h; exact modeChanged_enterDraining (by decide) more
  · split at h
    · rename_i empty; cases h; exact rest .monitor (by decide) (by decide) fun _ => empty
    · rename_i more; cases h; exact modeChanged_enterDraining (by decide) more
  · cases h; exact same
  · rename_i m; cases h; exact retarget _ (by decide) m
  · rename_i m; cases h; exact retarget _ (by decide) m
  · cases h; exact modeChanged_returnToActive s l
  · rename_i m; cases h; exact rest .bypass (by decide) (by decide) fun x => x.idle (by rw [m]; rfl)
  · rename_i m; cases h; exact modeChanged_enterMonitor (by rw [m]; rfl)
  · cases h

end

/-! ### A keepalive expiry -/

/-- A lane after an expiry: every held frame made ready in its order, and FAILSAFE (R34, R119). -/
def LaneState.expired (x : LaneState) : LaneState :=
  { (x.queue.foldl (fun y e => y.addReady e.frame) { x with queue := [] }) with mode := .failsafe, target := .none }

theorem lane_foldl_makeReady (l : LaneId) (q : List QueueEntry) : ∀ s : State,
    (q.foldl (fun s e => s.makeReady l e.frame) s).lane l = q.foldl (fun y e => y.addReady e.frame) (s.lane l) := by
  induction q with
  | nil => exact fun _ => rfl
  | cons e rest ih => exact fun s => (ih (s.makeReady l e.frame)).trans (by rw [lane_makeReady_same]; rfl)

theorem lane_expireLane (l : LaneId) (s : State) : (State.expireLane l s).lane l =
    if (s.lane l).mode.tracking then (s.lane l).expired else s.lane l := by
  unfold State.expireLane
  split
  · refine ((probeOnly_leaveProbe _ l).spares l).lane.trans ((lane_setMode _ l _ _).trans ?_)
    rw [State.failsafeRelease, lane_foldl_makeReady, State.lane_modLane_same]
    rfl
  · rfl

theorem spares_expireLane (k l : LaneId) (s : State) (ne : l ≠ k) : s.Spares l (State.expireLane k s) := by
  unfold State.expireLane
  split
  · exact (((laneEvent_failsafeRelease s k).trans (laneEvent_modLane _ k _)).spares ne).trans
      ((probeOnly_leaveProbe _ k).spares l)
  · exact .refl l s

/-- Every tracking lane's turn at an expiry, and the other lanes as they stand (R34, R175). -/
theorem lane_expire (s : State) (l : LaneId) :
    s.expire.lane l = if (s.lane l).mode.tracking then (s.lane l).expired else s.lane l := by
  obtain ⟨u, before, after⟩ := spares_forEachLane spares_expireLane l
    (State.latchEvent { s with keepalive := { s.keepalive with state := .expired } } .wdog)
  have start : u.lane l = s.lane l := before.lane
  exact after.lane.trans (by rw [lane_expireLane, start])

/-- The frames made ready leave the rest of a lane. -/
theorem foldl_addReady_stands (q : List QueueEntry) : ∀ x : LaneState,
    (q.foldl (fun y e => y.addReady e.frame) x).queue = x.queue ∧
      (q.foldl (fun y e => y.addReady e.frame) x).counters = x.counters ∧
      (q.foldl (fun y e => y.addReady e.frame) x).output.toList ++
          (q.foldl (fun y e => y.addReady e.frame) x).response.toList ++
          (q.foldl (fun y e => y.addReady e.frame) x).ready =
        x.output.toList ++ x.response.toList ++ x.ready ++ q.map (·.frame) := by
  induction q with
  | nil => exact fun x => ⟨rfl, rfl, (List.append_nil _).symm⟩
  | cons e rest ih =>
    intro x
    obtain ⟨queue, counters, frames⟩ := ih (x.addReady e.frame)
    refine ⟨queue.trans (startReady_queue _), counters.trans (startReady_counters _), frames.trans ?_⟩
    rw [LaneState.addReady, startReady_frames]
    simp

theorem pool_expire (s : State) : s.expire.pool = s.pool := by
  refine forEachLane_keeps (P := fun u => u.pool = s.pool) (fun k u h => ?_) rfl
  unfold State.expireLane
  split
  · obtain ⟨p, e⟩ := probeOnly_leaveProbe ((u.failsafeRelease k).setMode k .failsafe .none) k
    rw [e]
    exact (pool_failsafeRelease u k).trans h
  · exact h

/-- The tick at the keepalive monitor leaves the pool, and each lane as it stands or as an expiry leaves it. -/
theorem monitorTick_lane (s : State) (l : LaneId) : s.monitorTick.lane l = s.lane l ∨
    ((s.lane l).mode.tracking = true ∧ s.monitorTick.lane l = (s.lane l).expired) := by
  unfold State.monitorTick
  split
  · dsimp only
    split
    · rw [lane_expire]
      split
      · rename_i tracks
        exact .inr ⟨tracks, rfl⟩
      · exact .inl rfl
    · exact .inl rfl
  · exact .inl rfl

theorem pool_monitorTick (s : State) : s.monitorTick.pool = s.pool := by
  unfold State.monitorTick
  split
  · dsimp only
    split
    · exact pool_expire _
    · rfl
  · rfl

theorem queue_expired (x : LaneState) : x.expired.queue = [] := (foldl_addReady_stands x.queue { x with queue := [] }).1

theorem sheds_expired (x : LaneState) : x.Sheds x.expired where
  legal _ := gateLegal_of_empty nofun rfl (queue_expired x)
  line := by rw [line_eq_nil.mpr (queue_expired x)]; exact List.nil_suffix

end Sys2Proof.Machine

/-! SUPPORT. What every command answers at the modes, the gate and the frozen records of each lane, and the three statements
that follow: where a mode may change, that frozen records stand, and that the gate keeps its bounds (R20, R26, R33, R34,
R68, R91, R98 to R100, R104, R109, R171, R183). -/

namespace Sys2Proof

/-- FLUSH-FLOWS and EVICT-FLOW naming a lane: the commands that may change frozen records alone (R26, R73, R74). -/
def Instr.Removes (c : Instr) (l : LaneId) : Prop :=
  ∃ params : List Byte, (c = .flushFlows params ∨ c = .evictFlow params) ∧ Machine.byteAt params 0 = l.val

end Sys2Proof

namespace Sys2Proof.Machine

/-! ### The commands that change no mode -/

theorem val_of_laneOf {v : Nat} {l : LaneId} (h : laneOf v = some l) : v = l.val := by
  unfold laneOf at h
  split at h
  · cases h; rfl
  · cases h

section

variable {C : Prop} {s : State}

/-- A removal of records of one lane, handed on (R68, R73, R74). -/
theorem turn_removal {u : State} {k : LaneId} {D : LaneId → Prop} (event : s.LaneEvent k u) (lane : u.lane k = s.lane k)
    (named : ¬ D k) (l : LaneId) : s.Turn C (D l) l (u.handOn k s) :=
  (event.trans (laneEvent_handOn u k s)).turns (turn_handOn (lane ▸ .refl _) fun d => absurd d named) l

theorem turn_flushFlows (p : List Byte) (space : Nat) {D : LaneId → Prop}
    (named : ∀ l : LaneId, byteAt p 0 = l.val → ¬ D l) (l : LaneId) :
    s.Turn C (D l) l (effectFlushFlows p space s).state := by
  unfold effectFlushFlows
  refine withLength_state (P := s.Turn C (D l) l) (.refl s) (withLane_state (.refl s) fun k hk =>
    withSpace_state (.refl s) ?_)
  split
  · exact .refl s
  · exact turn_removal (laneEvent_removeLaneRecords s k) rfl (named k (val_of_laneOf hk)) l

theorem turn_evictFlow (p : List Byte) (space : Nat) {D : LaneId → Prop}
    (named : ∀ l : LaneId, byteAt p 0 = l.val → ¬ D l) (l : LaneId) :
    s.Turn C (D l) l (effectEvictFlow p space s).state := by
  unfold effectEvictFlow
  refine withLength_state (P := s.Turn C (D l) l) (.refl s) (withLane_state (.refl s) fun k hk => ?_)
  dsimp only
  split
  · exact .refl s
  · refine withLength_state (.refl s) (withSpace_state (.refl s) ?_)
    split
    · exact turn_removal (laneEvent_removeRecord s k _) rfl (named k (val_of_laneOf hk)) l
    · exact .refl s

/-- WRITE-LANE-PARAMS acts where the lane does not enforce, so the gate holds nothing (R36, R79). -/
theorem turn_writeLaneParams (p : List Byte) (space : Nat) {D : Prop} (l : LaneId) :
    s.Turn C D l (effectWriteLaneParams p space s).state := by
  unfold effectWriteLaneParams
  refine withLength_state (P := s.Turn C D l) (.refl s) (withLane_state (.refl s) fun k _ => withSpace_state (.refl s) ?_)
  split
  · exact .refl s
  · rename_i open'
    dsimp only
    generalize (paramBlockAt p 1).clamped (s.recordCount k) = stored
    obtain ⟨u, hu⟩ : ∃ u : State, u = s.modLane k fun x => { x with params := stored } := ⟨_, rfl⟩
    have inactive : (s.lane k).mode ≠ .active := fun e => open' (by rw [e]; rfl)
    have lane : u.lane k = { s.lane k with params := stored } := by rw [hu, State.lane_modLane_same]
    have event : s.LaneEvent k u := hu ▸ laneEvent_modLane s k _
    rw [← hu]
    split
    · rename_i monitor
      have a := accounted_recompute u k
      refine State.LaneEvent.turns (D := fun _ => D) (event.trans (laneEvent_recompute u k)) (turn_of_numbers
        (a.mode.trans (by rw [lane])) (a.target.trans (by rw [lane])) (a.queue.trans (by rw [lane]))
        (fun m => absurd m inactive) fun _ m => ?_) l
      rw [monitor] at m; cases m
    · exact State.LaneEvent.turns (D := fun _ => D) event (turn_of_numbers (by rw [lane]) (by rw [lane]) (by rw [lane])
        (fun m => absurd m inactive) fun _ _ => by rw [hu]; rfl) l

theorem turn_readCounters (p : List Byte) (space : Nat) {D : Prop} (l : LaneId) :
    s.Turn C D l (effectReadCounters p space s).state := by
  unfold effectReadCounters
  refine withLength_state (P := s.Turn C D l) (.refl s) ?_
  dsimp only
  split
  · unfold readChipCounters
    refine withSpace_state (.refl s) ?_
    dsimp only
    split
    · exact State.SameGate.turn ⟨rfl, rfl, rfl, rfl, rfl, rfl, rfl⟩
    · exact .refl s
  · refine withLane_state (.refl s) fun k _ => ?_
    unfold readLaneCounters
    refine withSpace_state (.refl s) ?_
    dsimp only
    split
    · exact (sameGate_modLane (f := fun x => { x with counters := LaneCounters.reset }) s k l fun _ =>
        ⟨rfl, rfl, rfl, rfl, rfl, rfl⟩).turn
    · exact .refl s

theorem turn_startProbe (p : List Byte) (space : Nat) {D : Prop} (l : LaneId) :
    s.Turn C D l (effectStartProbe p space s).state := by
  unfold effectStartProbe
  refine withLength_state (P := s.Turn C D l) (.refl s) (withLane_state (.refl s) fun k _ => ?_)
  split
  · exact .refl s
  · refine withSpace_state (.refl s) ?_
    split
    · exact ((probeOnly_requestProbe s k _).sameGate l).turn
    · exact .refl s

theorem turn_ackEvents (p : List Byte) (space : Nat) {D : Prop} (l : LaneId) :
    s.Turn C D l (effectAckEvents p space s).state := by
  have latched : ∀ (k : LaneId) (u : State), u.SameGate l (u.latchOverload k) := fun k u =>
    ⟨by simp, by simp, by simp, by simp, by simp, by simp, by simp [State.records]⟩
  have cleared : s.SameGate l { s with latch := s.latch &&& ~~~ (BitVec.ofNat 19 (fieldAt p 0 3)) } :=
    ⟨rfl, rfl, rfl, rfl, rfl, rfl, rfl⟩
  unfold effectAckEvents
  refine withLength_state (P := s.Turn C D l) (.refl s) (withSpace_state (.refl s) ?_)
  dsimp only
  exact (cleared.trans (sameGate_forEachLane latched _)).turn

theorem turn_writeChip (p : List Byte) (space : Nat) {D : Prop} (l : LaneId) :
    s.Turn C D l (effectWriteChip p space s).state := by
  unfold effectWriteChip
  refine withLength_state (P := s.Turn C D l) (.refl s) ?_
  split
  · exact .refl s
  · exact withSpace_state (.refl s) (State.SameGate.turn ⟨rfl, rfl, rfl, rfl, rfl, rfl, rfl⟩)

theorem turn_writeClass (p : List Byte) (space : Nat) {D : Prop} (l : LaneId) :
    s.Turn C D l (effectWriteClass p space s).state := by
  unfold effectWriteClass
  refine withLength_state (P := s.Turn C D l) (.refl s) ?_
  split
  · exact .refl s
  · split
    · exact .refl s
    · exact withSpace_state (.refl s) (State.SameGate.turn ⟨rfl, rfl, rfl, rfl, rfl, rfl, rfl⟩)

theorem state_readClass (p : List Byte) (space : Nat) : (effectReadClass p space s).state = s := by
  unfold effectReadClass
  refine withLength_state (P := (· = s)) rfl ?_
  split
  · rfl
  · exact withSpace_state (P := (· = s)) rfl rfl

theorem state_readFlows (p : List Byte) (space : Nat) : (effectReadFlows p space s).state = s := by
  unfold effectReadFlows
  refine withLength_state (P := (· = s)) rfl (withLane_state (P := (· = s)) rfl fun l _ => ?_)
  dsimp only
  split
  · rfl
  · exact withSpace_state (P := (· = s)) rfl rfl

end

/-! ### One command -/

/-- What the numbers and the frozen records of a lane need of a command and the state it starts from. -/
abbrev State.FrozenFor (s : State) (c : Instr) (l : LaneId) : Prop :=
  s.PoolCanonical ∧ s.ProbeLegal ∧ ¬ c.Removes l

/-- All that a command can be to the gate, the modes and the frozen records. Most are a turn of every lane; an outbound
segment goes on to the gate's stage; the end of a frame and DRAIN_RELEASE may drain; the monitor may expire;
SET-LANE-MODE and RELEASE-LANE name their lane; CHIP-RESET and the pins set every lane. -/
inductive GateAnswer (s : State) : Instr → State → Prop where
  | turns {c : Instr} {t : State} (h : ∀ l : LaneId, s.Turn s.PoolCanonical (s.FrozenFor c l) l t) : GateAnswer s c t
  | outbound {t u : State} (l : LaneId) (f : Frame) (tracks : (s.lane l).mode.tracking = true) (before : s.LaneEvent l u)
      (turn : s.Turn s.PoolCanonical (s.FrozenFor (.outboundArrival l f) l) l u) (event : u.LaneEvent l t)
      (h : u.GateArrived l t) : GateAnswer s (.outboundArrival l f) t
  | drains {c : Instr} {t u : State} (l : LaneId) (row : c = .outputFrameEnd l ∨ c = .drainRelease l)
      (before : ∀ l' : LaneId, s.SameGate l' u) (h : t = u.drain l) : GateAnswer s c t
  | monitor {c : Instr} {t : State} (row : c = .keepaliveTick ∨ c = .keepaliveExpiry) (h : t = s.monitorTick) :
      GateAnswer s c t
  | mode {t u : State} {p : List Byte} (l : LaneId) (lane : byteAt p 0 = l.val) (req : RequestedMode)
      (h : s.changeMode l req = some u) (after : ∀ l' : LaneId, u.SameGate l' t) : GateAnswer s (.setLaneMode p) t
  | released {t : State} {p : List Byte} (l : LaneId) (lane : byteAt p 0 = l.val)
      (after : ∀ l' : LaneId, (s.releaseLane l).SameGate l' t) : GateAnswer s (.releaseLane p) t
  | reset {c : Instr} {t : State} (row : c = .powerOn ∨ c = .rstNAssert ∨
        (∃ (a : BitVec 4) (k : BitVec 2) (p : BitVec 1), c = .rstNRelease a k p) ∨ ∃ p : List Byte, c = .chipReset p)
      (h : ∀ l : LaneId, (t.lane l).mode = .bypass ∧ (t.lane l).target = .none ∧ (t.lane l).queue = []) :
      GateAnswer s c t

theorem State.ArbiterOnly.sameGate {s t : State} (h : s.ArbiterOnly t) (l : LaneId) : s.SameGate l t := by
  obtain ⟨o, r, p, lane⟩ := h.lanes l
  exact ⟨by rw [lane], by rw [lane], by rw [lane], by rw [lane], by rw [lane], by rw [lane],
    by rw [State.records, h.pool]; rfl⟩

theorem gateAnswer_refl (s : State) (c : Instr) : GateAnswer s c s := .turns fun _ => .refl s

theorem gateAnswer_outbound (s : State) (l : LaneId) (f : Frame) :
    GateAnswer s (.outboundArrival l f) (if s.clocked then s.outboundFrame l f else s) := by
  have counted : ∀ c : LaneCounter, GateAnswer s (.outboundArrival l f) (s.countLane l c) := fun c =>
    .turns fun k => (sameGate_countLane s l k c).turn
  have ready : ∀ k : LaneId, s.SameGate k (s.makeReady l f) := fun k => sameGate_modLane s l k fun _ =>
    ⟨startReady_mode _, startReady_target _, startReady_queue _, startReady_params _, startReady_budget _,
      startReady_nMax _⟩
  split
  · unfold State.outboundFrame
    split
    · exact counted _
    · split
      · exact .turns fun k => ((ready k).trans (sameGate_countLane _ l k _)).turn
      · split
        · exact counted _
        · split
          · exact .turns fun k => ((ready k).trans (sameGate_countLane _ l k _)).turn
          · rename_i g _
            unfold State.outboundSegment
            split
            · rename_i tracks
              refine .outbound l f tracks ((laneEvent_reportSegment s l g).trans (laneEvent_handOn _ l s))
                (turn_handOn (accounted_reportSegment s l g) fun _ m => ?_) (laneEvent_gateArrival _ l g f _ _)
                (gateArrived_gateArrival _ l g f _ _)
              rw [tracks] at m; cases m
            · exact .turns fun k => (ready k).turn
  · exact gateAnswer_refl s _

theorem gateAnswer_inbound (s : State) (l : LaneId) (f : Frame) :
    GateAnswer s (.inboundArrival l f) (if s.clocked then s.inboundFrame l f else s) := by
  have sent : ∀ k : LaneId, s.SameGate k (s.sendStation l f) := fun _ => ⟨rfl, rfl, rfl, rfl, rfl, rfl, rfl⟩
  split
  · unfold State.inboundFrame
    split
    · exact .turns fun k => (sameGate_countLane s l k _).turn
    · split
      · exact .turns fun k => ((sent k).trans (sameGate_countLane _ l k _)).turn
      · split
        · exact .turns fun k => ((arbiterOnly_receiveControl s l f).sameGate k).turn
        · split
          · exact .turns fun k => ((sent k).trans (sameGate_countLane _ l k _)).turn
          · exact .turns fun k => (sent k).trans_turn (turn_inboundSegment _ l _ k)
  · exact gateAnswer_refl s _

/-- The effect of a command that is none of SET-LANE-MODE, RELEASE-LANE and CHIP-RESET. -/
theorem turn_outcome {s : State} {c : Instr} (space : Nat) (h : (∀ p, c ≠ .setLaneMode p) ∧ (∀ p, c ≠ .releaseLane p) ∧
    ∀ p, c ≠ .chipReset p) (l : LaneId) : s.Turn s.PoolCanonical (s.FrozenFor c l) l (c.outcome space s).state := by
  have refl : ∀ {D : Prop}, s.Turn s.PoolCanonical D l s := .refl s
  cases c
  case setLaneMode p => exact absurd rfl (h.1 p)
  case releaseLane p => exact absurd rfl (h.2.1 p)
  case chipReset p => exact absurd rfl (h.2.2 p)
  case keepalive p =>
    exact withSpace_state (P := State.Turn _ _ l s) refl (State.SameGate.turn ⟨rfl, rfl, rfl, rfl, rfl, rfl, rfl⟩)
  case readChip p => exact withSpace_state (P := State.Turn _ _ l s) refl refl
  case writeChip p => exact turn_writeChip p space l
  case setTimebase p =>
    exact withLength_state (P := State.Turn _ _ l s) refl (withSpace_state refl (sameGate_timer s l _).turn)
  case ackEvents p => exact turn_ackEvents p space l
  case writeLaneParams p => exact turn_writeLaneParams p space l
  case readLane p =>
    exact withLength_state (P := State.Turn _ _ l s) refl (withLane_state refl fun _ _ => withSpace_state refl refl)
  case readCounters p => exact turn_readCounters p space l
  case flushFlows p =>
    exact turn_flushFlows p space (D := s.FrozenFor (.flushFlows p)) (fun k lane d => d.2.2 ⟨p, .inl rfl, lane⟩) l
  case startProbe p => exact turn_startProbe p space l
  case writeClass p => exact turn_writeClass p space l
  case readClass p => exact (state_readClass p space).symm ▸ refl
  case readFlows p => exact (state_readFlows p space).symm ▸ refl
  case evictFlow p =>
    exact turn_evictFlow p space (D := s.FrozenFor (.evictFlow p)) (fun k lane d => d.2.2 ⟨p, .inr rfl, lane⟩) l
  all_goals exact refl

/-- The command's own effect was `u`; what the control engine did after it is not the gate's. -/
def State.AnswersBy (s : State) (c : Instr) (t u : State) : Prop := (∀ l : LaneId, u.SameGate l t) → GateAnswer s c t

theorem answersBy_self (s : State) (c : Instr) (t : State) : s.AnswersBy c t s := fun h => .turns fun l => (h l).turn

theorem gateAnswer_setLaneMode {s t : State} (p : List Byte) (space : Nat) :
    s.AnswersBy (.setLaneMode p) t (effectSetLaneMode p space s).state := by
  have unchanged := answersBy_self s (.setLaneMode p) t
  unfold effectSetLaneMode
  refine withLength_state (P := s.AnswersBy _ t) unchanged (withLane_state unchanged fun l hl => ?_)
  split
  · exact unchanged
  · rename_i req _
    refine withSpace_state (P := s.AnswersBy _ t) unchanged ?_
    split
    · rename_i u h
      exact .mode l (val_of_laneOf hl) req (requestMode_eq h)
    · exact unchanged

theorem gateAnswer_releaseLane {s t : State} (p : List Byte) (space : Nat) :
    s.AnswersBy (.releaseLane p) t (effectReleaseLane p space s).state := by
  have unchanged := answersBy_self s (.releaseLane p) t
  unfold effectReleaseLane
  exact withLength_state (P := s.AnswersBy _ t) unchanged (withLane_state unchanged fun l hl =>
    withSpace_state unchanged (.released l (val_of_laneOf hl)))

theorem gateAnswer_chipReset {s t : State} (p : List Byte) (space : Nat)
    (after : ∀ l : LaneId, (effectChipReset p space s).state.SameGate l t) : GateAnswer s (.chipReset p) t := by
  revert after
  unfold effectChipReset
  split
  · refine fun after => .reset (.inr (.inr (.inr ⟨p, rfl⟩))) fun l => ?_
    have g := after l
    have lane : s.chipReset.lane l = (s.lane l).chipReset := lane_chipReset s l
    refine ⟨g.mode.trans ?_, g.target.trans ?_, g.queue.trans ?_⟩ <;> rw [lane] <;> rfl
  · exact fun after => .turns fun l => (after l).turn

/-- The effect of every command row. -/
theorem gateAnswer_outcome {s t : State} {c : Instr} (space : Nat)
    (after : ∀ l : LaneId, (c.outcome space s).state.SameGate l t) : GateAnswer s c t := by
  have turns : ((∀ p, c ≠ .setLaneMode p) ∧ (∀ p, c ≠ .releaseLane p) ∧ ∀ p, c ≠ .chipReset p) → GateAnswer s c t :=
    fun h => .turns fun l => (turn_outcome space h l).trans_same (after l)
  cases c
  case setLaneMode p => exact gateAnswer_setLaneMode p space after
  case releaseLane p => exact gateAnswer_releaseLane p space after
  case chipReset p => exact gateAnswer_chipReset p space after
  all_goals exact turns ⟨nofun, nofun, nofun⟩

theorem gateAnswer_ite {s t : State} {i : Instr} {c : Prop} [Decidable c] (h : GateAnswer s i t) :
    GateAnswer s i (if c then t else s) := by
  split
  · exact h
  · exact gateAnswer_refl s i

theorem lane_powerOn (s : State) (level : Bool) (straps : Straps) (l : LaneId) :
    State.lane { s.powerOnBlocks with rstN := level, straps := straps } l = LaneState.reset := State.lane_reset l

theorem served_of_probeLegal {s : State} (h : s.ProbeLegal) {r : ProbeRequest} (serving : s.probe.engine.serving = some r) :
    (s.lane r.lane).mode.tracking = true := by
  have served := h.2.2.1 r (by rw [serving]; exact List.mem_singleton_self r)
  revert served
  cases (s.lane r.lane).mode <;> simp [Mode.served, Mode.tracking]

/-- What exec answers to every command in every state, at the gate, the modes and the frozen records. -/
theorem exec_gateAnswer {c : Instr} {s t : State} (h : exec c s = .next t) : GateAnswer s c t := by
  have command : ∀ (code : Byte) (params : List Byte), c.command = some (code, params) → GateAnswer s c t := by
    intro code params hc
    cases now : s.spaceFor code params with
    | none =>
      rw [exec_command_notNow hc now] at h
      cases h
      exact gateAnswer_refl s c
    | some space =>
      rw [exec_command_done hc now] at h
      cases h
      exact gateAnswer_outcome space fun l => (arbiterOnly_writeItem ..).sameGate l
  have engine : ∀ l : LaneId, s.Turn s.PoolCanonical (s.FrozenFor c l) l s.engineTick :=
    turn_engineTick fun l r d => served_of_probeLegal d.2.1
  have limit : ∀ (slot : Nat) (r : FlowRecord), s.silentRecord slot = some r →
      ∀ l : LaneId, s.Turn s.PoolCanonical (s.FrozenFor c l) l (s.limitEvent slot r) := fun slot r silent =>
    turn_limitEvent silent id fun _ d => d.1
  cases c
  case inboundArrival l f => cases h; exact gateAnswer_inbound s l f
  case outboundArrival l f => cases h; exact gateAnswer_outbound s l f
  case powerOn => cases h; exact .reset (.inl rfl) fun l => lane_powerOn s s.rstN Straps.reset l ▸ ⟨rfl, rfl, rfl⟩
  case rstNAssert => cases h; exact .reset (.inr (.inl rfl)) fun l => lane_powerOn s false Straps.reset l ▸ ⟨rfl, rfl, rfl⟩
  case rstNRelease a k p =>
    cases h
    split
    · exact gateAnswer_refl s _
    · exact .reset (.inr (.inr (.inl ⟨a, k, p, rfl⟩))) fun l => lane_powerOn s true ⟨a, k, p⟩ l ▸ ⟨rfl, rfl, rfl⟩
  case outputFrameEnd l =>
    cases h
    refine gateAnswer_ite ?_
    obtain idle | ⟨f, output⟩ := Option.eq_none_or_eq_some (s.lane l).output
    · rw [endFrame_of_idle idle]; exact gateAnswer_refl s _
    · exact .drains l (.inl rfl) (arbiterOnly_served s l f).sameGate (endFrame_of_output output)
  case responseHandover =>
    cases h
    exact gateAnswer_ite (.turns fun l => ((arbiterOnly_takeHandOver s).sameGate l).turn)
  case drainRelease l => cases h; exact gateAnswer_ite (.drains l (.inr rfl) (fun l' => .refl l' s) rfl)
  case epochTick => cases h; exact gateAnswer_ite (.turns fun l => turn_timerTick s l)
  case flowTableTick =>
    cases h; exact gateAnswer_ite (.turns fun l => turn_forEachLane laneEvent_flowTickLane turn_flowTickLane s l)
  case expectationTimeout slot =>
    cases h
    split
    · rename_i r silent
      exact gateAnswer_ite (.turns (limit slot.val r silent))
    · exact gateAnswer_refl s _
  case ageLimit slot =>
    cases h
    split
    · rename_i r silent
      exact gateAnswer_ite (.turns (limit slot.val r silent))
    · exact gateAnswer_refl s _
  case gateTick => cases h; exact gateAnswer_ite (.turns fun l =>
      turn_forEachLane laneEvent_gateTickLane turn_gateTickLane s l)
  case holdLimit l =>
    cases h
    split
    · rename_i due
      simp only [LaneState.headAtLimit, Bool.and_eq_true, decide_eq_true_eq] at due
      exact .turns ((laneEvent_reevaluateLoop _ _ l s).turns (turn_reevaluateLoop true due.2.1 le_rfl))
    · exact gateAnswer_refl s _
  case probeTick =>
    cases h
    exact gateAnswer_ite (.turns fun l => (engine l).trans_same
      (sameGate_forEachLane (fun k u => sameGate_intervalTick k u l) _))
  case probeWindowStart =>
    cases h
    split
    · exact gateAnswer_ite (.turns engine)
    · exact gateAnswer_refl s _
    · exact gateAnswer_refl s _
  case probeCompletion => cases h; exact gateAnswer_ite (.turns engine)
  case probeIntervalRequest l => cases h; exact gateAnswer_ite (.turns fun k => (sameGate_intervalTick l s k).turn)
  case keepaliveTick => cases h; exact gateAnswer_ite (.monitor (.inl rfl) rfl)
  case keepaliveExpiry => cases h; exact gateAnswer_ite (.monitor (.inr rfl) rfl)
  case refclkStop => cases h; exact .turns fun _ => State.SameGate.turn ⟨rfl, rfl, rfl, rfl, rfl, rfl, rfl⟩
  case refclkReturn => cases h; exact .turns fun _ => State.SameGate.turn ⟨rfl, rfl, rfl, rfl, rfl, rfl, rfl⟩
  all_goals exact command _ _ rfl

/-! ### Where a mode may change -/

/-- A lane that leaves its mode in an event of its drain was DRAINING. -/
theorem draining_of_leavesDrain {x y : LaneState} (h : x.LeavesDrain y) (changed : y.mode ≠ x.mode) : x.mode = .draining :=
  h.elim (fun e => absurd e changed) And.left

theorem leavesDrain_releaseLane (s : State) (l : LaneId) : (s.lane l).LeavesDrain ((s.releaseLane l).lane l) := by
  unfold State.releaseLane
  split
  · exact (emptied_releaseAll s l).finished.2.1
  · exact .inl rfl

/-- Settles O49: by what the command is to the lane. -/
theorem modesChangeOnlyAtNamedEvents : Obligations.ModesChangeOnlyAtNamedEvents := by
  unfold Obligations.ModesChangeOnlyAtNamedEvents
  intro c s t l h changed
  have other : ∀ {k : LaneId}, (l ≠ k → s.Spares l t) → l = k := fun spared => by
    by_contra ne
    exact changed (by rw [(spared ne).lane])
  cases exec_gateAnswer h with
  | turns h => exact absurd (h l).mode changed
  | outbound k f _ before turn event h =>
    obtain rfl := other fun ne => (before.trans event).spares ne
    have leaves := LaneState.LeavesDrain.trans (.inl turn.mode) h.leavesDrain
    exact .inr (.inr (.inr (.inr (.inr (.inr (.inr ⟨draining_of_leavesDrain leaves changed, .inr (.inl ⟨f, rfl⟩)⟩))))))
  | drains k row before h =>
    subst h
    obtain rfl : l = k := by
      by_contra ne
      exact changed (by rw [((laneEvent_drain _ k).spares ne).lane, (before l).mode])
    have leaves := LaneState.LeavesDrain.trans (.inl (before l).mode) (drain_leaves _ l).2
    exact .inr (.inr (.inr (.inr (.inr (.inr (.inr ⟨draining_of_leavesDrain leaves changed, .inr (.inr row)⟩))))))
  | monitor row _ => exact .inr (.inr (.inr (.inr (.inr (row.elim .inl fun e => .inr (.inl e))))))
  | mode k lane req row after =>
    obtain rfl : l = k := by
      by_contra ne
      exact changed (by rw [(after l).mode, (spares_changeMode ne row).lane])
    exact .inr (.inr (.inr (.inl ⟨_, rfl, lane⟩)))
  | released k lane after =>
    obtain rfl : l = k := by
      by_contra ne
      exact changed (by rw [(after l).mode, ((laneEvent_releaseLane s k).spares ne).lane])
    have draining := draining_of_leavesDrain (leavesDrain_releaseLane s l) (by rwa [← (after l).mode])
    exact .inr (.inr (.inr (.inr (.inr (.inr (.inr ⟨draining, .inl ⟨_, rfl, lane⟩⟩))))))
  | reset row _ =>
    obtain e | e | e | e := row
    · exact .inl e
    · exact .inr (.inl e)
    · exact .inr (.inr (.inl e))
    · exact .inr (.inr (.inr (.inr (.inl e))))

/-! ### Frozen records -/

theorem not_enforcing_of_frozen {m : Mode} (h : m.tracking = false) : m.enforcing = false := by
  revert h
  cases m <;> simp [Mode.tracking, Mode.enforcing]

/-- Settles O50: no turn but those named touches the records of a lane that is not tracking. -/
theorem frozenRecordsStand : Obligations.FrozenRecordsStand := by
  unfold Obligations.FrozenRecordsStand
  intro c s t l canonical probe h frozen changed
  cases exec_gateAnswer h with
  | turns h =>
    by_cases named : c.Removes l
    · obtain ⟨params, row, lane⟩ := named
      exact .inr (.inr (.inr (.inl ⟨params, .inr row, lane⟩)))
    · exact absurd ((h l).frozen ⟨canonical, probe, named⟩ frozen) changed
  | outbound k f tracks before _ event _ =>
    have ne : l ≠ k := fun e => by rw [e, tracks] at frozen; cases frozen
    exact absurd ((before.trans event).spares ne).records changed
  | drains k _ before h =>
    subst h
    refine absurd (Eq.trans ?_ (before l).records) changed
    by_cases e : l = k
    · subst e
      rw [drain_of_mode fun m => ?_]
      rw [← (before l).mode, m] at frozen
      cases frozen
    · exact ((laneEvent_drain _ k).spares e).records
  | monitor _ h => exact absurd (by rw [h, State.records, pool_monitorTick]; rfl) changed
  | mode k lane req row after =>
    by_cases e : l = k
    · subst e; exact .inr (.inr (.inr (.inl ⟨_, .inl rfl, lane⟩)))
    · exact absurd ((after l).records.trans (spares_changeMode e row).records) changed
  | released k _ after =>
    refine absurd ((after l).records.trans ?_) changed
    by_cases e : l = k
    · subst e
      rw [State.releaseLane, not_enforcing_of_frozen frozen]
      rfl
    · exact ((laneEvent_releaseLane s k).spares e).records
  | reset row _ =>
    obtain e | e | e | e := row
    · exact .inl e
    · exact .inr (.inl e)
    · exact .inr (.inr (.inl e))
    · exact .inr (.inr (.inr (.inr e)))

/-! ### The bounds of the gate -/

theorem State.GateBounds.shed_one {s t : State} {k : LaneId} (h : s.GateBounds) (own : (s.lane k).Sheds (t.lane k))
    (others : ∀ l : LaneId, l ≠ k → s.Spares l t) : t.GateBounds :=
  h.sheds fun l => by
    by_cases e : l = k
    · exact e ▸ own
    · exact (others l e).sheds

theorem sheds_releaseLane (s : State) (l : LaneId) : (s.lane l).Sheds ((s.releaseLane l).lane l) := by
  unfold State.releaseLane
  split
  · exact (emptied_releaseAll s l).finished.1
  · exact .refl _

/-- Every command keeps the bounds of the gate (R20, R33, R99, R104). -/
theorem exec_keeps_gateBounds {c : Instr} {s t : State} (hs : s.GateBounds) (h : exec c s = .next t) : t.GateBounds := by
  cases exec_gateAnswer h with
  | turns h => exact hs.sheds fun l => (h l).sheds_lane
  | outbound k f _ before turn event h => exact h.bounds event (hs.shed_one turn.sheds_lane fun l => before.spares)
  | drains k _ before h =>
    have hu := hs.sheds fun l => (before l).sheds
    exact h ▸ hu.shed_one (drain_leaves _ k).1 fun l => (laneEvent_drain _ k).spares
  | monitor _ h =>
    refine hs.sheds fun l => h ▸ ?_
    obtain e | ⟨-, e⟩ := monitorTick_lane s l
    · rw [e]; exact .refl _
    · rw [e]; exact sheds_expired _
  | mode k _ req row after =>
    exact (hs.shed_one (modeChanged_changeMode row).sheds fun l ne => spares_changeMode ne row).sheds fun l => (after l).sheds
  | released k _ after =>
    exact (hs.shed_one (sheds_releaseLane s k) fun l => (laneEvent_releaseLane s k).spares).sheds fun l => (after l).sheds
  | reset _ h =>
    refine hs.sheds fun l => ⟨fun _ => ?_, ?_⟩
    · exact gateLegal_of_empty (by rw [(h l).1]; decide) (h l).2.1 (h l).2.2
    · rw [line_eq_nil.mpr (h l).2.2]; exact List.nil_suffix

/-- How a lane can be ACTIVE after a command: its re-evaluation went to its end; or it was ACTIVE and the gate got no
cause; or it came from MONITOR with its queue. -/
def State.ActiveAfter (s : State) (l : LaneId) (t : State) : Prop :=
  t.Blocked l ∨ ((s.lane l).mode = .active ∧ s.Rests s.PoolCanonical l t) ∨
    ((s.lane l).mode = .monitor ∧ (t.lane l).queue = (s.lane l).queue)

theorem State.SameGate.activeAfter {l : LaneId} {s t : State} (h : s.SameGate l t) (active : (t.lane l).mode = .active) :
    s.ActiveAfter l t := .inr (.inl ⟨h.mode.symm.trans active, h.rests⟩)

theorem State.Turn.activeAfter {l : LaneId} {s t : State} {D : Prop} (h : s.Turn s.PoolCanonical D l t)
    (active : (t.lane l).mode = .active) : s.ActiveAfter l t :=
  have before := h.mode.symm.trans active
  (h.steady before).imp_right fun r => .inl ⟨before, r⟩

theorem exec_activeAfter {c : Instr} {s t : State} (h : exec c s = .next t) {l : LaneId}
    (active : (t.lane l).mode = .active) : s.ActiveAfter l t := by
  cases exec_gateAnswer h with
  | turns h => exact (h l).activeAfter active
  | outbound k f _ before turn event h =>
    by_cases e : l = k
    · subst e
      obtain mode | c := h.leavesDrain
      · have before := turn.mode.symm.trans (mode.symm.trans active)
        exact (h.steady active (turn.steady before)).imp_right fun r => .inl ⟨before, r⟩
      · exact absurd active c.2
    · exact ((before.trans event).spares e).sameGate.activeAfter active
  | drains k _ before h =>
    subst h
    refine ((before l).trans ?_).activeAfter active
    by_cases e : l = k
    · subst e
      obtain mode | c := (drain_leaves _ l).2
      · rw [drain_of_mode (by rw [← mode, active]; decide)]
        exact .refl l _
      · exact absurd active c.2
    · exact ((laneEvent_drain _ k).spares e).sameGate
  | monitor _ h =>
    subst h
    obtain e | ⟨-, e⟩ := monitorTick_lane s l
    · exact State.SameGate.activeAfter (State.Spares.sameGate ⟨e, by rw [State.records, pool_monitorTick]; rfl⟩) active
    · rw [e] at active; cases active
  | mode k _ req row after =>
    have active' := (after l).mode.symm.trans active
    by_cases e : l = k
    · subst e
      obtain same | blocked | ⟨monitor, queue⟩ := (modeChanged_changeMode row).active active'
      · subst same; exact (after l).activeAfter active
      · exact .inl (blocked.same (after l))
      · exact .inr (.inr ⟨monitor, (after l).queue.trans queue⟩)
    · exact ((spares_changeMode e row).sameGate.trans (after l)).activeAfter active
  | released k _ after =>
    by_cases e : l = k
    · subst e
      by_cases enforces : (s.lane l).mode.enforcing = true
      · refine .inl (blocked_of_empty ((after l).queue.trans ?_))
        rw [State.releaseLane, if_pos enforces]
        exact (emptied_releaseAll s l).finished.2.2
      · have still : s.releaseLane l = s := if_neg enforces
        rw [still] at after
        exact (after l).activeAfter active
    · exact (((laneEvent_releaseLane s k).spares e).sameGate.trans (after l)).activeAfter active
  | reset _ h => rw [(h l).1] at active; cases active

/-- Two queues that begin with entries equal but for their held ticks begin with the same kind. -/
theorem kind_of_line_prefix {x y : LaneState} (h : x.line <+: y.line) {a b : QueueEntry} {xs ys : List QueueEntry}
    (hx : x.queue = a :: xs) (hy : y.queue = b :: ys) : b.kind = a.kind := by
  rw [LaneState.line, LaneState.line, hx, hy, List.map_cons, List.map_cons, List.cons_prefix_cons] at h
  exact (congrArg QueueEntry.kind h.1 :).symm

/-- Every command leaves no FOLLOWER at the head of an ACTIVE lane's queue (R100). -/
theorem exec_keeps_headsGated {c : Instr} {s t : State} (queues : s.QueuesLegal) (heads : s.HeadsGated)
    (h : exec c s = .next t) : t.HeadsGated := by
  intro l active e he
  cases queue : (t.lane l).queue with
  | nil => rw [queue] at he; cases he
  | cons x rest =>
    rw [queue] at he
    obtain rfl : e = x := by simpa using he
    obtain blocked | ⟨before, rests⟩ | ⟨monitor, same⟩ := exec_activeAfter h active
    · obtain ⟨d, kind, -⟩ := blocked e rest queue
      rw [kind]; nofun
    · cases old : (s.lane l).queue with
      | nil => rw [rests.empty old] at queue; cases queue
      | cons y ys =>
        rw [kind_of_line_prefix rests.line old queue]
        exact heads l before y (by rw [old]; exact List.mem_singleton_self y)
    · rw [same, (queues l).2.1 (by rw [monitor]; rfl)] at queue
      cases queue

/-- Settles O53: the bounds and the heads are kept by every command, and a re-evaluation with a cause goes to its end. -/
theorem stepKeepsQueuesAndStore : Obligations.StepKeepsQueuesAndStore := by
  unfold Obligations.StepKeepsQueuesAndStore
  refine ⟨fun s t targets queues store h => ?_, fun s t queues heads h => ?_,
    fun c s t l e rest canonical h before active cause queue => ?_⟩
  · have kept : t.GateBounds := step_keeps (P := State.GateBounds)
      (fun s hs => hs.sheds fun l => by
        have lanes : s.clockCycle.lanes = s.lanes := by
          unfold State.clockCycle
          split
          · split
            · rfl
            · split <;> rfl
          · rfl
        rw [State.lane_congr lanes]; exact .refl _)
      (fun _ _ hs => ⟨hs.lanes, hs.store⟩) (fun c s t hs h => exec_keeps_gateBounds hs h)
      ⟨(gateLegal_iff s).mpr ⟨targets, queues⟩, store⟩ h
    obtain ⟨targets', queues'⟩ := (gateLegal_iff t).mp kept.lanes
    exact ⟨targets', queues', kept.store⟩
  · unfold step at h
    split at h
    · cases h
      have lanes : s.clockCycle.lanes = s.lanes := by
        unfold State.clockCycle
        split
        · split
          · rfl
          · split <;> rfl
        · rfl
      intro l
      rw [State.lane_congr lanes]
      exact heads l
    · rename_i rest _
      exact exec_keeps_headsGated (s := { s with pending := rest }) queues heads h
  · obtain blocked | ⟨-, rests⟩ | ⟨monitor, -⟩ := exec_activeAfter h active
    · exact blocked e rest queue
    · obtain ⟨c, n, b⟩ := rests.numbers canonical
      obtain h | h | h | h := cause
      · omega
      · omega
      · omega
      · exact absurd rests.line h
    · rw [before] at monitor; cases monitor

end Sys2Proof.Machine

/-! SUPPORT. The hand-on of an event of the flow table, as the manual spells it, and the two commands that remove records
of a lane: FLUSH-FLOWS and EVICT-FLOW (R26, R68, R72 to R74, R91, R109). -/

namespace Sys2Proof.Machine

/-! ### The hand-on -/

/-- What a re-evaluation releases leaves the head of the queue in its order, each entry accounted and rewritten. -/
theorem State.Reevaluated.released {force : Bool} {l : LaneId} {s t : State} {entries : List QueueEntry}
    (h : s.Reevaluated force l entries t) : (s.lane l).mode.enforcing = true →
      (s.lane l).queue = entries ++ (t.lane l).queue ∧ s.Released l entries t := by
  have step : ∀ {s u t : State} {e : QueueEntry} {rest entries : List QueueEntry},
      (s.lane l).mode.enforcing = true → (s.lane l).queue = e :: rest →
      ((u.lane l).mode.enforcing = true → (u.lane l).queue = entries ++ (t.lane l).queue ∧ u.Released l entries t) →
      (s.releasing l e rest).KeepsRecords l u → u.outgoing l = (s.releasing l e rest).outgoing l →
      (u.lane l).mode = ((s.releasing l e rest).lane l).mode →
      (u.lane l).queue = ((s.releasing l e rest).lane l).queue →
      (s.lane l).queue = e :: entries ++ (t.lane l).queue ∧ s.Released l (e :: entries) t := by
    intro s u t e rest entries enforces queue ih keeps out mode left
    have eq := releaseHead_eq_releasing s l e rest enforces queue
    obtain ⟨hq, hm, -⟩ := releaseHead_spec s l e rest queue
    have head := released_releaseHead enforces queue
    rw [eq] at hq hm head
    obtain ⟨split, later⟩ := ih (by rw [mode, hm]; exact enforces)
    rw [queue, ← hq, ← left, split]
    exact ⟨rfl, (head.append (keeps.released_nil out)).append later⟩
  induction h with
  | empty queue => exact fun _ => ⟨rfl, .nil _ l⟩
  | blocked => exact fun _ => ⟨rfl, .nil _ l⟩
  | follower queue _ _ ih => exact fun m => step m queue ih (.refl l _) rfl rfl rfl
  | admitted queue _ _ _ _ ih => exact fun m => step m queue ih (.refl l _) rfl rfl rfl
  | forced queue _ _ _ _ ih =>
    refine fun m => step m queue ih (.of_pool rfl ?_ ?_) ?_ ?_ ?_ <;>
      simp only [State.outgoing, State.lane_modLane_same]
    rfl

theorem reevaluate_spec {s : State} {l : LaneId} (mode : (s.lane l).mode = .active) :
    ∃ released : List QueueEntry, s.Reevaluated false l released (s.reevaluate l) ∧
      (s.lane l).queue = released ++ ((s.reevaluate l).lane l).queue ∧ s.Released l released (s.reevaluate l) := by
  rw [State.reevaluate, if_pos mode]
  obtain ⟨released, h⟩ := reevaluateLoop_reevaluated false l _ s mode le_rfl
  exact ⟨released, h, h.released (by rw [mode]; rfl)⟩

/-- On a tracking lane an event whose own work left `u` is handed on once, to the grant engine and then to the gate. -/
theorem handedOn_handOn {s u : State} {l : LaneId} (tracks : (s.lane l).mode.tracking = true)
    (a : (s.lane l).Accounted (u.lane l)) : ∃ released : List QueueEntry, s.HandedOn l u released (u.handOn l s) ∧
      (s.lane l).queue = released ++ ((u.handOn l s).lane l).queue := by
  obtain ⟨w, hw⟩ : ∃ w : State, w = u.afterActiveSet l s := ⟨_, rfl⟩
  have engine : w = if u.activeSet l = s.activeSet l then u else u.recompute l := by
    rw [hw, State.afterActiveSet, a.mode, tracks, Bool.true_and]
    by_cases same : u.activeSet l = s.activeSet l <;> simp [same]
  have aw := hw ▸ a.trans (accounted_afterActiveSet u l s)
  have cause : w.gateCause l s = true ↔
      w.c l < s.c l ∨ w.n l < s.n l ∨ (s.lane l).budget < (w.lane l).budget := by
    simp only [State.gateCause, Bool.or_eq_true, decide_eq_true_eq, or_assoc]
  have gate : u.handOn l s = if w.gateCause l s = true then w.reevaluate l else w := by
    rw [State.handOn, ← hw, a.mode, tracks, Bool.true_and]
  rw [gate]
  by_cases active : (w.lane l).mode = .active ∧ w.gateCause l s = true
  · obtain ⟨released, r⟩ := reevaluate_spec active.1
    rw [if_pos active.2]
    exact ⟨released, ⟨w, engine, fun _ => r, fun none => absurd ⟨active.1, cause.mp active.2⟩ none⟩,
      aw.queue.symm.trans r.2.1⟩
  · have still : (if w.gateCause l s = true then w.reevaluate l else w) = w := by
      split
      · rename_i c
        exact if_neg fun m => active ⟨m, c⟩
      · rfl
    rw [still]
    exact ⟨[], ⟨w, engine, fun c => absurd (c.imp_right cause.mpr) active, fun _ => ⟨rfl, rfl⟩⟩, aw.queue.symm⟩

/-- Where no gate stands, nothing is released. -/
theorem State.HandedOn.released_nil {s u t : State} {l : LaneId} {released : List QueueEntry}
    (h : s.HandedOn l u released t) (mode : (u.lane l).mode ≠ .active) : released = [] := by
  obtain ⟨w, hw, -, none⟩ := h
  have same : (w.lane l).mode = (u.lane l).mode := by
    rw [hw]
    split
    · rfl
    · exact (accounted_recompute u l).mode
  exact (none fun c => mode (same.symm.trans c.1)).1

/-- Where the gate holds nothing on an ACTIVE lane, a re-evaluation does nothing. -/
theorem handOn_of_idle {u : State} {l : LaneId} (idle : (u.lane l).mode = .active → (u.lane l).queue = []) (b : State) :
    u.handOn l b = u.afterActiveSet l b := by
  have a := accounted_afterActiveSet u l b
  have still : (u.afterActiveSet l b).reevaluate l = u.afterActiveSet l b := by
    unfold State.reevaluate
    split
    · rename_i active
      rw [a.queue, idle (a.mode ▸ active)]
      rfl
    · rfl
  simp only [State.handOn, still, ite_self]

/-- The effects of the grant engine change no record but in its grant (R84). -/
theorem apartGrant_afterActiveSet (s : State) (l : LaneId) (b : State) :
    (s.afterActiveSet l b).pool.map FlowRecord.apartGrant = s.pool.map FlowRecord.apartGrant := by
  unfold State.afterActiveSet
  split
  · simp only [State.recompute, State.pool_latchOverload, State.modLane_pool, State.writeGrants, List.map_map]
    refine List.map_congr_left fun r _ => ?_
    rw [Function.comp_apply]
    split <;> rfl
  · rfl

/-- On a lane that is not tracking nothing is handed on (R26). -/
theorem handOn_of_not_tracking {u : State} {l : LaneId} (frozen : (u.lane l).mode.tracking = false) (b : State) :
    u.handOn l b = u := by
  have inactive : (u.lane l).mode ≠ .active := fun e => by rw [e] at frozen; cases frozen
  rw [handOn_of_idle (fun e => absurd e inactive), State.afterActiveSet, frozen]
  rfl

/-- What the control engine does for itself touches no lane and no record. -/
theorem spares_of_apart {s t : State} (h : t.apartEngine = s.apartEngine) (l : LaneId) : s.Spares l t :=
  have lanes : t.lanes = s.lanes := (congrArg State.lanes h :)
  have pool : t.pool = s.pool := (congrArg State.pool h :)
  .of_eq lanes pool l

/-! ### FLUSH-FLOWS -/

theorem effectFlushFlows_eq {params : List Byte} {space : Nat} {l : LaneId} (s : State) (fits : 2 ≤ space)
    (len : 1 ≤ params.length) (lane : byteAt params 0 = l.val) : effectFlushFlows params space s =
      if (s.lane l).mode.enforcing then refuse .notNow s
      else ⟨.ok, beBytes 2 (s.recordCount l), (s.removeLaneRecords l).handOn l s⟩ := by
  unfold effectFlushFlows
  rw [withLength_of_le len, withLane_of_val lane, withSpace_of_le fits]

/-- A lane tracks while it enforces, and in MONITOR (R21). -/
theorem not_tracking_of_not_enforcing {m : Mode} (free : m.enforcing = false) (ne : m ≠ .monitor) : m.tracking = false := by
  revert free ne
  cases m <;> simp [Mode.enforcing, Mode.tracking]

theorem records_removeLaneRecords (s : State) (l : LaneId) : (s.removeLaneRecords l).records l = [] := by
  simp [State.records, State.removeLaneRecords, List.filter_filter]

/-- The effects of the grant engine leave what admission reads of the records (R84). -/
theorem ledger_afterActiveSet (s : State) (l : LaneId) (b : State) (k : LaneId) :
    (s.afterActiveSet l b).ledger k = s.ledger k := by
  unfold State.afterActiveSet
  split
  · exact ledger_recompute s l k
  · rfl

/-- A lane without records has no active connection, no weight and no expected bytes (R55). -/
theorem numbers_of_no_records {s : State} {l : LaneId} (h : s.records l = []) : s.n l = 0 ∧ s.w l = 0 ∧ s.c l = 0 := by
  simp [State.n, State.w, State.c, State.activeRecords, h]

/-- Settles O34: the records go, and what is handed on is the grant engine's alone, for no gate stands. -/
theorem flushFlowsRemovesTheLanesRecords : Obligations.FlushFlowsRemovesTheLanesRecords := by
  unfold Obligations.FlushFlowsRemovesTheLanesRecords
  intro params s space l now fits len lane
  obtain ⟨t, answer, item, apart⟩ := exec_command_spec (c := .flushFlows params) rfl now
  rw [show (Instr.flushFlows params).outcome space s = effectFlushFlows params space s from rfl,
    effectFlushFlows_eq s fits len lane] at item apart
  refine ⟨fun enforces => ⟨t, answer, ?_⟩, fun free => ⟨t, answer, ?_⟩⟩
  · rw [if_pos enforces] at item apart
    exact ⟨item, apart⟩
  · rw [if_neg (by rw [free]; exact Bool.false_ne_true)] at item apart
    dsimp only at item apart
    obtain ⟨u, hu⟩ : ∃ u : State, u = s.removeLaneRecords l := ⟨_, rfl⟩
    rw [← hu] at apart
    have same : u.lane l = s.lane l := by rw [hu]; rfl
    have inactive : (u.lane l).mode ≠ .active := fun e => by rw [← same, e] at free; cases free
    have engine := handOn_of_idle (fun e => absurd e inactive) s
    have spares := spares_of_apart apart l
    have a := accounted_afterActiveSet u l s
    have records : t.records l = [] := by
      have ledger := ledger_afterActiveSet u l s l
      rw [State.ledger, State.ledger, hu, records_removeLaneRecords, List.map_nil, List.map_eq_nil_iff, ← hu] at ledger
      rw [spares.records, engine, ledger]
    obtain ⟨n, w, c⟩ := numbers_of_no_records records
    refine ⟨item, records, n, w, c, ?_, ?_, fun still => ?_, fun monitor => ?_, ?_⟩
    · rw [spares.lane, engine, a.queue, same]
    · rw [spares.lane, engine, a.mode, same]
    · have frozen : (u.lane l).mode.tracking = false := by
        rw [same]
        exact not_tracking_of_not_enforcing free still
      rw [apart, handOn_of_not_tracking frozen, hu]
      rfl
    · obtain ⟨released, handed, -⟩ := handedOn_handOn (s := s) (u := u) (l := l) (by rw [monitor]; rfl)
        (by rw [same]; exact .refl _)
      obtain rfl := State.HandedOn.released_nil handed inactive
      exact ⟨_, hu ▸ handed, apart⟩
    · rw [apart]
      exact ((hu ▸ laneEvent_removeLaneRecords s l).trans (laneEvent_handOn u l s)).apartEngine

/-! ### EVICT-FLOW -/

theorem effectEvictFlow_eq {params : List Byte} {space : Nat} {l : LaneId} {v : IpVersion} (s : State) (fits : 3 ≤ space)
    (lane : byteAt params 0 = l.val) (version : ipVersionOf (byteAt params 1) = some v)
    (len : 6 + 2 * v.addrBytes ≤ params.length) : effectEvictFlow params space s =
      match s.findRecord l (keyAt v params 2) with
      | some r => ⟨.ok, [1] ++ beBytes 2 r.slot, (s.removeRecord l (keyAt v params 2)).handOn l s⟩
      | none => ⟨.ok, zeros 3, s⟩ := by
  unfold effectEvictFlow
  rw [withLength_of_le (by omega), withLane_of_val lane, version]
  dsimp only
  rw [withLength_of_le len]
  exact withSpace_of_le fits s _

/-- Settles O38: the record goes, and its removal is handed on where the lane tracks. -/
theorem evictFlowRemovesTheRecord : Obligations.EvictFlowRemovesTheRecord := by
  unfold Obligations.EvictFlowRemovesTheRecord
  intro params s space l v key now fits lane form
  obtain ⟨version, len, hkey⟩ : ipVersionOf (byteAt params 1) = some v ∧ 6 + 2 * v.addrBytes ≤ params.length ∧
      keyAt v params 2 = key := by
    obtain ⟨byte, rfl, len, rfl⟩ | ⟨byte, rfl, len, rfl⟩ := form <;> exact ⟨by rw [byte]; rfl, len, rfl⟩
  obtain ⟨t, answer, item, apart⟩ := exec_command_spec (c := .evictFlow params) rfl now
  rw [show (Instr.evictFlow params).outcome space s = effectEvictFlow params space s from rfl,
    effectEvictFlow_eq s fits lane version len, hkey] at item apart
  refine ⟨fun absent => ⟨t, answer, ?_⟩, fun r found => ⟨t, answer, ?_⟩⟩
  · rw [absent] at item apart
    exact ⟨item, apart⟩
  · rw [found] at item apart
    dsimp only at item apart
    obtain ⟨u, hu⟩ : ∃ u : State, u = s.removeRecord l key := ⟨_, rfl⟩
    rw [← hu] at apart
    have same : u.lane l = s.lane l := by rw [hu]; rfl
    refine ⟨item, fun still => ?_, fun tracks => ?_, fun frozen => ?_, ?_⟩
    · have idle : (u.lane l).mode = .active → (u.lane l).queue = [] := fun e => by
        rw [same] at e ⊢
        refine still.elim (fun quiet => quiet.2 e) fun frozen => ?_
        rw [e] at frozen
        cases frozen
      have pool : t.pool = (u.handOn l s).pool := (congrArg State.pool apart :)
      rw [pool, handOn_of_idle idle, apartGrant_afterActiveSet, hu]
      rfl
    · obtain ⟨released, handed, queue⟩ := handedOn_handOn (u := u) tracks (by rw [same]; exact .refl _)
      exact ⟨_, released, hu ▸ handed, apart, by rw [(spares_of_apart apart l).lane]; exact queue⟩
    · rw [apart, handOn_of_not_tracking (by rw [same]; exact frozen), hu]
      rfl
    · rw [apart]
      exact ((hu ▸ laneEvent_removeRecord s l key).trans (laneEvent_handOn u l s)).apartEngine

end Sys2Proof.Machine

/-! SUPPORT. The tick of the flow table: every record of every tracking lane ages by the five steps, and each lane's
effects are handed on once (R68 to R70). -/

namespace Sys2Proof.Machine

/-! ### The five steps on one record -/

/-- The five steps together, where the connection has an entry held or none (R69). -/
theorem limits_age (r : FlowRecord) (held : Bool) (p : LaneParams) : (r.age held).limits p =
    (let idle := if r.seen then 0 else if held then r.idleTicks else min 255 (r.idleTicks + 1)
     if p.ageLimit ≤ idle ∨ r.state = .closing then none
     else some { r with
       dataLastEpoch := decide (0 < r.epochBytes)
       epochBytes := 0
       idleTicks := idle
       seen := false
       expected := if p.timeout ≤ idle then 0 else r.expected
       requestOpen := if p.timeout ≤ idle then false else r.requestOpen }) := by
  unfold FlowRecord.limits FlowRecord.age
  dsimp only
  generalize (if r.seen then 0 else if held then r.idleTicks else min 255 (r.idleTicks + 1)) = idle
  by_cases timeout : p.timeout ≤ idle <;> by_cases old : p.ageLimit ≤ idle <;> by_cases closing : r.state = .closing <;>
    simp [timeout, old, closing]

/-- The grant of a record does not enter the five steps. -/
theorem limits_apartGrant (r : FlowRecord) (p : LaneParams) :
    r.apartGrant.limits p = (r.limits p).map FlowRecord.apartGrant := by
  unfold FlowRecord.limits
  by_cases timeout : p.timeout ≤ r.idleTicks <;> by_cases old : p.ageLimit ≤ r.idleTicks <;>
    by_cases closing : r.state = .closing <;> simp [FlowRecord.apartGrant, timeout, old, closing]

theorem limits_age_apartGrant (r : FlowRecord) (held : Bool) (p : LaneParams) :
    ((r.apartGrant.age held).limits p).map FlowRecord.apartGrant = ((r.age held).limits p).map FlowRecord.apartGrant := by
  rw [show r.apartGrant.age held = (r.age held).apartGrant from rfl, limits_apartGrant, Option.map_map]
  rfl

/-! ### The records of several lanes -/

/-- What the tick leaves of a record, where some lanes have had their turn. -/
def State.aged (s : State) (ls : List LaneId) (r : FlowRecord) : Option FlowRecord :=
  if r.lane ∈ ls ∧ (s.lane r.lane).mode.tracking = true then
    (r.age (s.holds r.lane r.key)).limits (s.lane r.lane).params
  else some r

theorem aged_lane {s : State} {ls : List LaneId} {r r' : FlowRecord} (h : s.aged ls r = some r') : r'.lane = r.lane := by
  unfold State.aged at h
  split at h
  · exact FlowRecord.limits_lane (r.age _) r' _ h
  · rw [Option.some.inj h]

theorem aged_apartGrant (s : State) (ls : List LaneId) (r : FlowRecord) :
    (s.aged ls r).map FlowRecord.apartGrant = (s.aged ls r.apartGrant).map FlowRecord.apartGrant := by
  unfold State.aged
  rw [show r.apartGrant.lane = r.lane from rfl, show r.apartGrant.key = r.key from rfl]
  split
  · exact (limits_age_apartGrant ..).symm
  · rfl

theorem aged_congr {s u : State} {ls : List LaneId} (same : ∀ l ∈ ls, u.lane l = s.lane l) : u.aged ls = s.aged ls := by
  funext r
  unfold State.aged
  by_cases h : r.lane ∈ ls
  · rw [State.holds, State.holds, same _ h]
  · rw [if_neg fun c => h c.1, if_neg fun c => h c.1]

/-- The turns of one lane and then of others. -/
theorem aged_cons (s : State) {k : LaneId} {rest : List LaneId} (ne : k ∉ rest) (r : FlowRecord) :
    (s.aged [k] r).bind (s.aged rest) = s.aged (k :: rest) r := by
  cases h : s.aged [k] r with
  | none =>
    unfold State.aged at h ⊢
    split at h
    · rename_i c
      rw [if_pos ⟨List.mem_cons.mpr (.inl (List.mem_singleton.mp c.1)), c.2⟩, h]
      rfl
    · cases h
  | some r' =>
    have lane := aged_lane h
    by_cases own : r.lane = k
    · have still : s.aged rest r' = some r' := if_neg fun c => ne (own ▸ lane ▸ c.1)
      rw [Option.bind_some, still, ← h, State.aged, State.aged, own]
      simp
    · have still : s.aged [k] r = some r := if_neg fun c => own (List.mem_singleton.mp c.1)
      rw [← h, still, Option.bind_some, State.aged, State.aged]
      simp [own]

theorem pool_ageLane {s : State} {k : LaneId} (tracks : (s.lane k).mode.tracking = true) :
    (s.ageLane k).pool = s.pool.filterMap (s.aged [k]) := by
  refine List.filterMap_congr fun r _ => ?_
  unfold State.aged
  by_cases own : r.lane = k
  · rw [if_pos own, if_pos ⟨List.mem_singleton.mpr own, own ▸ tracks⟩, own]
  · rw [if_neg own, if_neg fun c => own (List.mem_singleton.mp c.1)]

/-- Pools that differ in grants alone age alike. -/
theorem aged_of_apartGrant (s : State) (ls : List LaneId) {p q : List FlowRecord}
    (h : p.map FlowRecord.apartGrant = q.map FlowRecord.apartGrant) :
    (p.filterMap (s.aged ls)).map FlowRecord.apartGrant = (q.filterMap (s.aged ls)).map FlowRecord.apartGrant := by
  have through : ∀ x : List FlowRecord, (x.filterMap (s.aged ls)).map FlowRecord.apartGrant =
      (x.map FlowRecord.apartGrant).filterMap fun r => (s.aged ls r).map FlowRecord.apartGrant := fun x => by
    rw [List.map_filterMap, List.filterMap_map]
    exact List.filterMap_congr fun r _ => aged_apartGrant s ls r
  rw [through, through, h]

/-! ### The turn of one lane -/

/-- No ACTIVE lane holds an entry. -/
def State.gateIdle (s : State) : Prop := ∀ l : LaneId, (s.lane l).mode = .active → (s.lane l).queue = []

theorem flowTickLane_of_idle {s : State} {l : LaneId} (idle : (s.lane l).mode = .active → (s.lane l).queue = [])
    (tracks : (s.lane l).mode.tracking = true) :
    State.flowTickLane l s = (s.ageLane l).afterActiveSet l s := by
  rw [State.flowTickLane, if_pos tracks]
  exact handOn_of_idle (u := s.ageLane l) idle s

theorem counters_afterActiveSet (s : State) (l : LaneId) (b : State) :
    ((s.afterActiveSet l b).lane l).counters = (s.lane l).counters := by
  unfold State.afterActiveSet
  split
  · rw [recompute_lane]
  · rfl

/-- Where the gate holds nothing the tick leaves a lane its mode, queue, parameters and counters. -/
theorem lane_flowTickLane {s : State} {l : LaneId} (idle : (s.lane l).mode = .active → (s.lane l).queue = []) :
    (s.lane l).Accounted ((State.flowTickLane l s).lane l) ∧
      ((State.flowTickLane l s).lane l).counters = (s.lane l).counters := by
  by_cases tracks : (s.lane l).mode.tracking = true
  · rw [flowTickLane_of_idle idle tracks]
    exact ⟨accounted_afterActiveSet (s.ageLane l) l s, counters_afterActiveSet (s.ageLane l) l s⟩
  · rw [State.flowTickLane, if_neg tracks]
    exact ⟨.refl _, rfl⟩

theorem gateIdle_flowTickLane {s : State} (idle : s.gateIdle) (k : LaneId) : (State.flowTickLane k s).gateIdle := by
  intro l
  by_cases own : l = k
  · subst own
    have a := (lane_flowTickLane (idle l)).1
    rw [a.mode, a.queue]
    exact idle l
  · rw [(laneEvent_flowTickLane k s).lanes l own]
    exact idle l

theorem pool_flowTickLane {s : State} (idle : s.gateIdle) (k : LaneId) :
    (State.flowTickLane k s).pool.map FlowRecord.apartGrant =
      (s.pool.filterMap (s.aged [k])).map FlowRecord.apartGrant := by
  by_cases tracks : (s.lane k).mode.tracking = true
  · rw [flowTickLane_of_idle (idle k) tracks, apartGrant_afterActiveSet, pool_ageLane tracks]
  · have still : s.aged [k] = some := by
      funext r
      refine if_neg fun c => tracks ?_
      rw [← List.mem_singleton.mp c.1]
      exact c.2
    rw [State.flowTickLane, if_neg tracks, still, List.filterMap_some]

/-- Where the gate holds nothing, the turns of several lanes age their records, and change the others in nothing but
their grants. -/
theorem pool_foldl_flowTickLane (ls : List LaneId) : ∀ s : State, s.gateIdle → ls.Nodup →
    (ls.foldl (fun s l => State.flowTickLane l s) s).pool.map FlowRecord.apartGrant =
      (s.pool.filterMap (s.aged ls)).map FlowRecord.apartGrant := by
  induction ls with
  | nil =>
    intro s _ _
    have still : s.aged [] = some := funext fun r => if_neg fun c => List.not_mem_nil c.1
    rw [still, List.filterMap_some, List.foldl_nil]
  | cons k rest ih =>
    intro s idle nodup
    obtain ⟨ne, nodup'⟩ := List.nodup_cons.mp nodup
    have same : (State.flowTickLane k s).aged rest = s.aged rest := aged_congr fun l hl =>
      (laneEvent_flowTickLane k s).lanes l fun e => ne (e ▸ hl)
    rw [List.foldl_cons, ih _ (gateIdle_flowTickLane idle k) nodup', same,
      aged_of_apartGrant s rest (pool_flowTickLane idle k), List.filterMap_filterMap]
    exact congrArg _ (List.filterMap_congr fun r _ => aged_cons s ne r)

/-! ### The tick -/

/-- The hand-on of the turn of a tracking lane, its records aged as R69 says. -/
theorem flowTickLane_handedOn {u : State} {l : LaneId} (tracks : (u.lane l).mode.tracking = true) :
    ∃ released : List QueueEntry, u.HandedOn l (u.ageLane l) released (State.flowTickLane l u) ∧
      (u.lane l).queue = released ++ ((State.flowTickLane l u).lane l).queue := by
  rw [State.flowTickLane, if_pos tracks]
  exact handedOn_handOn tracks (.refl _)

/-- Among what stands outside the lanes: the timer, the probe and the monitor. -/
theorem State.SameRest.stands {s t : State} (h : s.SameRest t) :
    t.timer = s.timer ∧ t.probe = s.probe ∧ t.keepalive = s.keepalive :=
  have h : { t with lanes := s.lanes, pool := s.pool, latch := s.latch } = s := h
  ⟨(congrArg State.timer h :), (congrArg State.probe h :), (congrArg State.keepalive h :)⟩

/-- The records of one lane age by the five steps (R69, R70). -/
theorem ageLane_eq (s : State) (l : LaneId) : s.ageLane l = { s with
    pool := s.pool.filterMap fun r =>
      if r.lane = l then
        let idle := if r.seen then 0 else if s.holds l r.key then r.idleTicks else min 255 (r.idleTicks + 1)
        if (s.lane l).params.ageLimit ≤ idle ∨ r.state = .closing then none
        else some { r with
          dataLastEpoch := decide (0 < r.epochBytes)
          epochBytes := 0
          idleTicks := idle
          seen := false
          expected := if (s.lane l).params.timeout ≤ idle then 0 else r.expected
          requestOpen := if (s.lane l).params.timeout ≤ idle then false else r.requestOpen }
      else some r } := by
  rw [State.ageLane]
  simp only [limits_age]

/-- Settles O41: each lane has one turn, in which its records age and its effects are handed on. -/
theorem flowTableTickAgesTrackedRecords : Obligations.FlowTableTickAgesTrackedRecords := by
  unfold Obligations.FlowTableTickAgesTrackedRecords
  intro s clocked
  have turn := laneTurn_forEachLane (f := State.flowTickLane) laneEvent_flowTickLane
  have rest := foldl_sameRest (f := State.flowTickLane) laneEvent_flowTickLane allLanes s
  refine ⟨forEachLane State.flowTickLane s, congrArg Host.Outcome.next (if_pos clocked), fun l tracks => ?_,
    fun l frozen => ?_, ?_, fun idle => ⟨?_, fun l => ?_, ?_⟩⟩
  · obtain ⟨u, h⟩ := turn l s
    have tracks' : (u.lane l).mode.tracking = true := by rw [h.before.1]; exact tracks
    obtain ⟨released, handed, queue⟩ := flowTickLane_handedOn tracks'
    refine ⟨u, _, released, h, by rw [h.after.1, ← h.before.1]; exact queue, ?_⟩
    have holds : ∀ key : FlowKey, u.holds l key = s.holds l key := fun key => by rw [State.holds, h.before.1]; rfl
    simp only [ageLane_eq, holds, h.before.1] at handed
    exact handed
  · obtain ⟨u, h⟩ := turn l s
    have still : State.flowTickLane l u = u := if_neg (by rw [h.before.1, frozen]; exact Bool.false_ne_true)
    rw [still] at h
    exact ⟨h.after.1.trans h.before.1, h.after.2.trans h.before.2⟩
  · exact rest
  · rw [forEachLane, pool_foldl_flowTickLane allLanes s idle (by decide), List.map_filterMap]
    refine List.filterMap_congr fun r _ => ?_
    unfold State.aged
    by_cases tracks : (s.lane r.lane).mode.tracking = true
    · rw [if_pos ⟨mem_allLanes r.lane, tracks⟩, if_pos tracks, limits_age]
      exact apply_ite (Option.map FlowRecord.apartGrant) _ _ _
    · rw [if_neg fun c => tracks c.2, if_neg tracks]
      rfl
  · obtain ⟨u, h⟩ := turn l s
    obtain ⟨a, counters⟩ := lane_flowTickLane (s := u) (l := l) (by rw [h.before.1]; exact idle l)
    rw [← h.after.1, h.before.1] at a counters
    exact ⟨a.mode, a.queue, a.params, counters⟩
  · exact rest.stands

end Sys2Proof.Machine

/-! SUPPORT. The keepalive monitor: what an expiry leaves of each lane, of the probe's queue and of the rest (R34, R119,
R174, R175). -/

namespace Sys2Proof.Machine

/-! ### A lane out of the probe's queue -/

theorem nextServed_suffix {s : State} {q : List ProbeRequest} {r : ProbeRequest} {rest : List ProbeRequest}
    (h : s.nextServed q = some (r, rest)) : r :: rest <:+ q := by
  induction q with
  | nil => cases h
  | cons x xs ih =>
    rw [State.nextServed] at h
    split at h
    · cases h
      exact List.suffix_refl _
    · exact (ih h).trans (List.suffix_cons x xs)

/-- The grant of the engine only takes requests off the queue. -/
theorem queue_grantProbe (s : State) : s.grantProbe.probe.queue <:+ s.probe.queue := by
  unfold State.grantProbe
  split
  · split
    · rename_i h
      exact (List.suffix_cons _ _).trans (nextServed_suffix h)
    · exact List.nil_suffix
  · exact List.suffix_refl _

/-- A lane that leaves the probe has no request queued, and no request is added (R144). -/
theorem queue_leaveProbe (s : State) (l : LaneId) : ∀ r ∈ (s.leaveProbe l).probe.queue, r ∈ s.probe.queue ∧ r.lane ≠ l := by
  have filtered : ∀ r ∈ s.probe.queue.filter fun r => r.lane ≠ l, r ∈ s.probe.queue ∧ r.lane ≠ l := fun r h => by
    simpa using h
  unfold State.leaveProbe
  dsimp only
  split
  · split
    · exact fun r h => filtered r ((queue_grantProbe _).subset h)
    · exact filtered
  · exact filtered

/-! ### An expiry outside the lanes -/

/-- An event that changes lanes and the probe, and nothing else. -/
def State.LanesAndProbe (s t : State) : Prop := ∃ (ls : Vector LaneState 8) (p : Probe), t = { s with lanes := ls, probe := p }

theorem State.LanesAndProbe.refl (s : State) : s.LanesAndProbe s := ⟨s.lanes, s.probe, rfl⟩

theorem State.LanesAndProbe.trans {s t u : State} (h : s.LanesAndProbe t) (h' : t.LanesAndProbe u) : s.LanesAndProbe u := by
  obtain ⟨ls, p, rfl⟩ := h
  obtain ⟨ls', p', rfl⟩ := h'
  exact ⟨ls', p', rfl⟩

theorem lanesAndProbe_failsafeRelease (s : State) (l : LaneId) : s.LanesAndProbe (s.failsafeRelease l) := by
  have all : ∀ (q : List QueueEntry) (u : State), u.LanesAndProbe (q.foldl (fun s e => s.makeReady l e.frame) u) := by
    intro q
    induction q with
    | nil => exact State.LanesAndProbe.refl
    | cons e rest ih => exact fun u => State.LanesAndProbe.trans ⟨_, u.probe, rfl⟩ (ih (u.makeReady l e.frame))
  exact State.LanesAndProbe.trans ⟨_, s.probe, rfl⟩ (all (s.lane l).queue _)

theorem lanesAndProbe_expireLane (l : LaneId) (s : State) : s.LanesAndProbe (State.expireLane l s) := by
  unfold State.expireLane
  split
  · obtain ⟨p, e⟩ := probeOnly_leaveProbe ((s.failsafeRelease l).setMode l .failsafe .none) l
    rw [e]
    exact ((lanesAndProbe_failsafeRelease s l).trans ⟨_, _, rfl⟩).trans ⟨_, p, rfl⟩
  · exact .refl s

/-- The state in which an expiry begins its lanes' turns: EXPIRED, and WDOG latched (R174, R175). -/
def State.expiring (s : State) : State :=
  State.latchEvent { s with keepalive := { s.keepalive with state := .expired } } .wdog

theorem lanesAndProbe_expire (s : State) : s.expiring.LanesAndProbe s.expire :=
  forEachLane_keeps (P := s.expiring.LanesAndProbe) (fun k u h => h.trans (lanesAndProbe_expireLane k u)) (.refl _)

/-- No tracking lane has a request queued after an expiry. -/
theorem probe_expire {s : State} {l : LaneId} (tracks : (s.lane l).mode.tracking = true) :
    l ∉ s.expire.probe.queue.map (·.lane) := by
  obtain ⟨before, after, split, early, -, -⟩ := allLanes_split l
  obtain ⟨u, hu⟩ : ∃ u : State, u = before.foldl (fun s k => State.expireLane k s) s.expiring := ⟨_, rfl⟩
  have lane : u.lane l = s.lane l := hu ▸ (foldl_spares spares_expireLane before early s.expiring).lane
  have out : ∀ v : State, (∀ r ∈ v.probe.queue, r.lane ≠ l) → l ∉ v.probe.queue.map (·.lane) := by
    intro v h c
    obtain ⟨r, hr, e⟩ := List.mem_map.mp c
    exact h r hr e
  have whole : s.expire = after.foldl (fun s k => State.expireLane k s) (State.expireLane l u) := by
    rw [State.expire, forEachLane, split, List.foldl_append, List.foldl_cons, hu, State.expiring]
  rw [whole]
  refine out _ (foldl_keeps (P := fun v => ∀ r ∈ v.probe.queue, r.lane ≠ l) after (fun k _ v h => ?_) _ ?_)
  · unfold State.expireLane
    split
    · have same : (v.failsafeRelease k).probe = v.probe := (congrArg State.probe (laneEvent_failsafeRelease v k).rest :)
      exact fun r hr => h r (same ▸ (queue_leaveProbe _ k r hr).1)
    · exact h
  · rw [State.expireLane, lane, if_pos tracks]
    exact fun r hr => (queue_leaveProbe _ l r hr).2

/-- Settles O48: by the state of the monitor and the count that the tick brings. -/
theorem keepaliveTickCountsAndExpires : Obligations.KeepaliveTickCountsAndExpires := by
  unfold Obligations.KeepaliveTickCountsAndExpires
  have tick : ∀ s : State, s.clocked = true → exec .keepaliveTick s = .next s.monitorTick := fun s clocked =>
    congrArg Host.Outcome.next (if_pos clocked)
  refine ⟨fun s clocked still => ?_, fun s clocked running below => ?_, fun s clocked running due => ?_⟩
  · rw [tick s clocked, State.monitorTick, if_neg still]
  · rw [tick s clocked, State.monitorTick, if_pos running, if_neg]
    simp only [State.expiryNext, decide_eq_true_eq]
    exact fun c => absurd c.2 (Nat.not_le.mpr below)
  · obtain ⟨s1, hs1⟩ : ∃ s1 : State, s1 = { s with keepalive := { s.keepalive with count := s.keepalive.count + 1 } } :=
      ⟨_, rfl⟩
    have next : s.expiryNext = true := decide_eq_true ⟨running, due⟩
    have expires : s.monitorTick = s1.expire := by rw [State.monitorTick, if_pos running, if_pos next, hs1]
    obtain ⟨ls, p, rest⟩ := lanesAndProbe_expire s1
    have lane := lane_expire s1
    have same : ∀ l : LaneId, s1.lane l = s.lane l := fun l => by rw [hs1]; rfl
    refine ⟨s1.expire, by rw [tick s clocked, expires], ?_, ?_, ?_, fun l tracks => ?_, fun l frozen => ?_, ?_, ?_, ?_, ?_⟩
    · refine congrArg Host.Outcome.next ((if_pos ?_).trans expires)
      rw [clocked, next]
      rfl
    · rw [rest, hs1]
      exact congrArg (Keepalive.mk _ _) rfl
    · rw [rest]
      exact State.latched_latchEvent_same _ .wdog
    · have tracks' : (s1.lane l).mode.tracking = true := by rw [same]; exact tracks
      have own : s1.expire.lane l = (s.lane l).expired := by rw [lane, if_pos tracks', same]
      obtain ⟨queue, counters, frames⟩ := foldl_addReady_stands (s.lane l).queue { s.lane l with queue := [] }
      refine ⟨by rw [own]; rfl, by rw [own]; rfl, by rw [own]; exact queue, ?_, by rw [own]; exact counters,
        probe_expire tracks'⟩
      have sent : s1.expire.fabricSent = s.fabricSent := by rw [rest, hs1]; rfl
      rw [State.framesOf, State.framesOf, State.outgoing, State.outgoing, own, sent, queue_expired]
      simp only [List.append_assoc, List.map_nil, List.append_nil] at frames ⊢
      exact congrArg _ frames
    · rw [lane, same, frozen]
      rfl
    · rw [pool_expire, hs1]
    all_goals
      rw [rest, hs1]
      rfl

end Sys2Proof.Machine

/-! SUPPORT. WRITE-LANE-PARAMS: the eleven values clamped to their ranges, and what a MONITOR lane computes from them
(R79 to R83). -/

namespace Sys2Proof.Machine

/-- The ranges of Table 5-2 that a field of the command can leave: the widths of the fields hold the others (R79, R182). -/
theorem paramBlockAt_clamped (bs : List Byte) (records : Nat) (w : LaneParams) (h : w = paramBlockAt bs 1) :
    w.clamped records = ⟨w.bufferShare, max 1 w.rNominal, min 4095 w.targetDelay, max 64 w.floorGrant,
      max 8 (min 32 w.overcommit), max 1 w.holdLimit, max 1 w.ageLimit, max 1 w.timeout,
      max records (max 1 (min 1024 w.quota)), max 1 (min 15 w.defaultWeight), w.probeInterval⟩ := by
  have share : w.bufferShare < 256 ^ 3 := h ▸ fieldAt_lt bs _ 3
  have nominal : w.rNominal < 256 ^ 3 := h ▸ fieldAt_lt bs _ 3
  have floor : w.floorGrant < 256 ^ 2 := h ▸ fieldAt_lt bs _ 2
  have hold : w.holdLimit < 256 ^ 1 := h ▸ fieldAt_lt bs _ 1
  have age : w.ageLimit < 256 ^ 1 := h ▸ fieldAt_lt bs _ 1
  have timeout : w.timeout < 256 ^ 1 := h ▸ fieldAt_lt bs _ 1
  have interval : w.probeInterval < 256 ^ 1 := h ▸ fieldAt_lt bs _ 1
  simp only [LaneParams.clamped, clampTo, Config.max24, LaneParams.mk.injEq, true_and]
  omega

theorem effectWriteLaneParams_eq {params : List Byte} {space : Nat} {l : LaneId} (s : State) (fits : 18 ≤ space)
    (len : 19 ≤ params.length) (lane : byteAt params 0 = l.val) {w p : LaneParams} (hw : paramBlockAt params 1 = w)
    (hp : w.clamped (s.recordCount l) = p) : effectWriteLaneParams params space s =
      if (s.lane l).mode.enforcing then refuse .notNow s
      else ⟨okOr (decide (p ≠ w)), p.bytes,
        if (s.lane l).mode = .monitor then (s.modLane l fun x => { x with params := p }).recompute l
        else s.modLane l fun x => { x with params := p }⟩ := by
  subst hw hp
  unfold effectWriteLaneParams
  rw [withLength_of_le len, withLane_of_val lane, withSpace_of_le fits]

/-- CLAMPED exactly where the stored values are not the written ones (R79). -/
theorem okOr_code (p w : LaneParams) : (okOr (decide (p ≠ w))).code = if p = w then 0x00 else 0x01 := by
  by_cases same : p = w <;> simp [okOr, same, Status.code]

theorem effectiveRate_eq (p : LaneParams) (r : Option Nat) : effectiveRate p r = (r.map (min p.rNominal)).getD p.rNominal := by
  cases r <;> rfl

/-- Settles O32: by the mode of the lane. -/
theorem writeLaneParamsClampsAndStores : Obligations.WriteLaneParamsClampsAndStores := by
  unfold Obligations.WriteLaneParamsClampsAndStores
  intro params s space l w p now fits len lane hw hp
  have written : paramBlockAt params 1 = w := hw.symm
  have stored : w.clamped (s.recordCount l) = p :=
    (paramBlockAt_clamped params (s.recordCount l) w written.symm).trans hp.symm
  obtain ⟨t, answer, item, apart⟩ := exec_command_spec (c := .writeLaneParams params) rfl now
  rw [show (Instr.writeLaneParams params).outcome space s = effectWriteLaneParams params space s from rfl,
    effectWriteLaneParams_eq s fits len lane written stored] at item apart
  refine ⟨fun enforces => ⟨t, answer, ?_⟩, fun frozen => ⟨t, answer, ?_⟩, fun monitor => ⟨t, answer, ?_⟩⟩
  · rw [if_pos enforces] at item apart
    exact ⟨item, apart⟩
  · have inactive : ¬ (s.lane l).mode = .monitor := fun e => by rw [e] at frozen; cases frozen
    rw [if_neg (by rw [not_enforcing_of_frozen frozen]; exact Bool.false_ne_true)] at item apart
    dsimp only at item apart
    rw [okOr_code] at item
    rw [if_neg inactive] at apart
    exact ⟨item, apart⟩
  · rw [if_neg (by rw [monitor]; exact Bool.false_ne_true)] at item apart
    dsimp only at item apart
    rw [okOr_code] at item
    rw [if_pos monitor] at apart
    obtain ⟨u, hu⟩ : ∃ u : State, u = s.modLane l fun x => { x with params := p } := ⟨_, rfl⟩
    rw [← hu] at apart
    have same : u.lane l = { s.lane l with params := p } := by rw [hu, State.lane_modLane_same]
    have n : u.n l = s.n l := by rw [hu]; rfl
    refine ⟨item, ⟨_, _, rfl, rfl, ?_⟩, ?_⟩
    · rw [(spares_of_apart apart l).lane, recompute_lane, same, n]
      dsimp only
      rw [effectiveRate_eq]
      rfl
    · rw [apart]
      exact ((hu ▸ laneEvent_modLane s l _).trans (laneEvent_recompute u l)).apartEngine

end Sys2Proof.Machine

/-! SUPPORT. The drain releases of a lane, one at the end of a frame and those that DRAIN_RELEASE finds due (R33, R106,
R107, R117). -/

namespace Sys2Proof.Machine

/-! ### Drain releases in a row -/

theorem drainLoop_released (l : LaneId) (n : Nat) : ∀ s : State, ∃ released : List QueueEntry,
    (s.lane l).queue = released ++ ((State.drainLoop n l s).lane l).queue ∧
      s.Released l released (State.drainLoop n l s) := by
  induction n with
  | zero => exact fun s => ⟨[], rfl, .nil s l⟩
  | succ n ih =>
    intro s
    unfold State.drainLoop
    split
    · rename_i due
      simp only [LaneState.drainDue, decide_eq_true_eq] at due
      obtain ⟨mode, -, holding⟩ := due
      obtain ⟨e, rest, queue⟩ := List.exists_cons_of_ne_nil holding
      have head := (released_releaseHead (by rw [mode]; rfl) queue).append (released_finishDrain (s.releaseHead l) l)
      obtain ⟨later, split, released⟩ := ih ((s.releaseHead l).finishDrain l)
      rw [finishDrain_queue, (releaseHead_spec s l e rest queue).1] at split
      exact ⟨e :: later, by rw [queue, split]; rfl, head.append released⟩
    · exact ⟨[], rfl, .nil s l⟩

/-- The drain releases take entries off the head of the queue in their order, each accounted and rewritten. -/
theorem drain_released (s : State) (l : LaneId) : ∃ released : List QueueEntry,
    (s.lane l).queue = released ++ ((s.drain l).lane l).queue ∧ s.Released l released (s.drain l) :=
  drainLoop_released l _ s

/-! ### One drain release -/

theorem drainLoop_of_not_due {s : State} {l : LaneId} (h : (s.lane l).drainDue = false) (n : Nat) :
    State.drainLoop n l s = s := by
  cases n with
  | zero => rfl
  | succ n => exact if_neg (by rw [h]; exact Bool.false_ne_true)

/-- A DRAINING lane whose frame made ready stands alone behind its output, and the end of the drain where nothing is held
(R33). -/
theorem finishDrain_makeReady {s : State} {l : LaneId} {f f0 : Frame} {rest : List QueueEntry}
    (mode : (s.lane l).mode = .draining) (output : (s.lane l).output = some f0) (ready : (s.lane l).ready = [])
    (queue : (s.lane l).queue = rest) : (s.makeReady l f).finishDrain l = s.modLane l fun x => { x with
      ready := [f]
      mode := if rest ≠ [] then .draining else if x.target = .monitor then .monitor else .bypass
      target := if rest ≠ [] then x.target else .none } := by
  have alone : s.makeReady l f = s.modLane l fun x => { x with ready := [f] } :=
    modLane_congr ((addReady_of_output output f).trans (by rw [ready]; rfl))
  rw [alone, State.finishDrain, State.lane_modLane_same]
  dsimp only
  rw [mode, queue, modLane_modLane]
  by_cases last : rest = []
  · rw [if_pos ⟨rfl, last⟩]
    refine modLane_congr ?_
    rw [if_neg (not_not.mpr last), if_neg (not_not.mpr last)]
    cases (s.lane l).target <;> rfl
  · rw [if_neg fun c => last c.2]
    refine modLane_congr ?_
    rw [if_pos last, if_pos last, ← mode]

/-- The drain release that an emptied ready list makes, on an output in use: one entry leaves (R117). -/
theorem drain_of_output {s : State} {l : LaneId} {e : QueueEntry} {rest : List QueueEntry} {f0 : Frame}
    (mode : (s.lane l).mode = .draining) (output : (s.lane l).output = some f0) (ready : (s.lane l).ready = [])
    (queue : (s.lane l).queue = e :: rest) {s1 : State}
    (hs1 : s1 = (s.modLane l fun x => { x with queue := rest }).account l e) :
    s.drain l = (s1.rewrite l e.frame).2.modLane l fun x => { x with
      ready := [(s1.rewrite l e.frame).1]
      mode := if rest ≠ [] then .draining else if x.target = .monitor then .monitor else .bypass
      target := if rest ≠ [] then x.target else .none } := by
  have due : (s.lane l).drainDue = true := by simp [LaneState.drainDue, mode, ready, queue]
  have a : ({ s.lane l with queue := rest } : LaneState).Accounted ((s1.rewrite l e.frame).2.lane l) := by
    refine .trans ?_ (accounted_rewrite s1 l e.frame)
    rw [hs1]
    have taken := accounted_account (s.modLane l fun x => { x with queue := rest }) l e
    rwa [State.lane_modLane_same] at taken
  have enforces : (s1.lane l).mode.enforcing = true := by
    rw [hs1, (accounted_account _ l e).mode, State.lane_modLane_same, mode]
    rfl
  have head : s.releaseHead l = (s1.rewrite l e.frame).2.makeReady l (s1.rewrite l e.frame).1 := by
    rw [State.releaseHead, queue]
    dsimp only
    rw [← hs1, State.passOut, if_pos enforces]
  rw [State.drain, queue, List.length_cons, State.drainLoop, if_pos due, head,
    finishDrain_makeReady (a.mode.trans mode) (a.output.trans output) (a.ready.trans ready) a.queue]
  refine drainLoop_of_not_due ?_ _
  simp [LaneState.drainDue]

/-! ### The charge of the head -/

/-- The effects of the grant engine leave a record in its place, and change it in nothing but its grant (R84). -/
theorem findRecord_afterActiveSet {s : State} {l : LaneId} {key : FlowKey} {r : FlowRecord} (b : State)
    (h : s.findRecord l key = some r) : ∃ r' : FlowRecord, (s.afterActiveSet l b).findRecord l key = some r' ∧
      r'.apartGrant = r.apartGrant := by
  unfold State.afterActiveSet
  split
  · rw [findRecord_map (State.pool_latchOverload _ l) (fun r => by split <;> exact ⟨rfl, rfl⟩), h]
    exact ⟨_, rfl, by dsimp only; split <;> rfl⟩
  · exact ⟨r, h, rfl⟩

/-- A request charged to its record (R64, R107). -/
theorem findRecord_charge {s : State} {l : LaneId} {key : FlowKey} {d : ClassDecision} {r : FlowRecord}
    (h : s.findRecord l key = some r) : ∃ r' : FlowRecord, (s.charge l key d).findRecord l key = some r' ∧
      { r' with grant := r.grant } = { r with
        expected := min 16777215 (r.expected + d.cost), requestOpen := true, seen := true } := by
  have charged : (s.chargeRecord l key d).findRecord l key = some (r.charge d.cost) := by
    obtain ⟨-, -, eq⟩ | ⟨absent, -⟩ := chargeRecord_cases s l key d
    · rw [eq, findRecord_modRecord s l key key (f := fun r => r.charge d.cost) fun _ => ⟨rfl, rfl⟩, h, Option.map_some,
        if_pos rfl]
    · rw [absent] at h; cases h
  obtain ⟨r', found, same⟩ := findRecord_afterActiveSet s charged
  exact ⟨r', found, (congrArg (fun x : FlowRecord => { x with grant := r.grant }) same :)⟩

/-! ### The statement -/

/-- Settles O23: the release that the end of a frame makes, the one that was due, and those that DRAIN_RELEASE finds. -/
theorem drainReleasesTheHead : Obligations.DrainReleasesTheHead := by
  unfold Obligations.DrainReleasesTheHead
  refine ⟨fun l e rest f0 s s0 s1 s2 rst mode output queue hs1 hs2 => ?_, fun l s rst => ?_⟩
  · have account : s1 = s0.account l e := hs1.trans (by unfold State.account; cases e.kind <;> rfl)
    refine ⟨fun h refclk slot ready hs0 => ?_, fun ready hs0 => ?_, fun d r kind found => ?_⟩
    · obtain ⟨u, hu⟩ : ∃ u : State, u = s.served l f0 := ⟨_, rfl⟩
      have served : u = (s.sendFabric l f0).modLane l fun x => { x with output := some h, ready := [] } := by
        rw [hu, served_of_noHandOver f0 fun _ full => by rw [slot] at full; cases full]
        refine modLane_congr ?_
        rw [LaneState.nextOutput, show (s.sendFabric l f0).lane l = s.lane l from rfl, slot, ready]
      have lane : u.lane l = { s.lane l with output := some h, ready := [] } := by
        rw [served, State.lane_modLane_same]
        rfl
      have clocked : s.clocked = true := by rw [State.clocked, rst, refclk]; rfl
      rw [exec_outputFrameEnd clocked output, ← hu, hs2]
      refine congrArg Host.Outcome.next (drain_of_output (f0 := h) ?_ ?_ ?_ ?_ ?_)
      · rw [lane]; exact mode
      · rw [lane]
      · rw [lane]
      · rw [lane]; exact queue
      · rw [account, hs0, served, modLane_modLane]
    · rw [hs2]
      exact congrArg Host.Outcome.next ((if_pos rst).trans
        (drain_of_output mode output ready queue (by rw [account, hs0])))
    · rw [kind] at hs1
      rw [hs1]
      exact findRecord_charge found
  · have answer : exec (.drainRelease l) s = .next (s.drain l) := congrArg Host.Outcome.next (if_pos rst)
    obtain ⟨released, queue, h⟩ := drain_released s l
    exact ⟨fun none => by rw [answer, drain_of_not_due none],
      _, released, answer, queue, h, drain_not_due s l, laneEvent_drain s l⟩

end Sys2Proof.Machine

/-! SUPPORT. SET-LANE-MODE: what a mode change asks of the probe, what its releases leave of PROBE and PROBE_UNSAT, and the
rows of its truth table one by one (R22, R25 to R32, R35, R109, R118, R143, R144, R146, R151). -/

namespace Sys2Proof.Machine

/-! ### A lane that leaves the probe -/

/-- The queue loses the lane's request, the others keeping their order (R144). -/
theorem probe_leaveProbe_of_other {s : State} {l : LaneId} (h : ∀ r ∈ s.probe.engine.serving.toList, r.lane ≠ l) :
    (s.leaveProbe l).probe = { s.probe with queue := s.probe.queue.filter fun r => r.lane ≠ l } := by
  unfold State.leaveProbe
  cases serving : s.probe.engine.serving with
  | none => rfl
  | some r => exact congrArg State.probe (if_neg (h r (by rw [serving]; exact List.mem_singleton.mpr rfl)))

/-- A probe that serves the lane is abandoned, and the engine granted to the next head or IDLE (R144, R146). -/
theorem probe_leaveProbe_of_served {s : State} {l : LaneId} (h : ∃ r ∈ s.probe.engine.serving.toList, r.lane = l)
    {q : List ProbeRequest} (hq : s.probe.queue.filter (fun r => r.lane ≠ l) = q)
    (served : ∀ r ∈ q, (s.lane r.lane).mode.served = true) :
    (q = [] → (s.leaveProbe l).probe = ⟨[], .idle, 0, 0, true⟩) ∧
      ∀ (r : ProbeRequest) (rest : List ProbeRequest), q = r :: rest →
        (s.leaveProbe l).probe = ⟨rest, .waiting r, 0, 0, true⟩ := by
  obtain ⟨r0, serves, own⟩ := h
  have serving : s.probe.engine.serving = some r0 := by
    cases e : s.probe.engine.serving with
    | none => rw [e] at serves; cases serves
    | some r =>
      rw [e] at serves
      rw [List.mem_singleton.mp serves]
  have freed : s.leaveProbe l = State.freeProbe { s with probe := { s.probe with queue := q } } := by
    unfold State.leaveProbe
    rw [serving, hq]
    exact if_pos own
  rw [freed, State.freeProbe]
  refine ⟨fun none => ?_, fun r rest first => ?_⟩
  · subst none
    rfl
  · subst first
    have next : (s.lane r.lane).mode.served = true := served r List.mem_cons_self
    unfold State.grantProbe
    rw [if_pos rfl]
    have granted : State.nextServed { s with probe := ⟨r :: rest, .idle, 0, 0, true⟩ } (r :: rest) = some (r, rest) :=
      if_pos next
    simp only [granted]

/-! ### A lane that asks for a LONG probe -/

theorem join_long (k : ProbeKind) : k.join .long = .long := by cases k <;> rfl

theorem probeQueued_iff (s : State) (l : LaneId) : s.probeQueued l = true ↔ l ∈ s.probe.queue.map (·.lane) := by
  simp [State.probeQueued]

theorem probe_requestProbe_of_queued {s : State} {l : LaneId} (h : l ∈ s.probe.queue.map (·.lane)) :
    (s.requestProbe l .long).probe = { s.probe with
      queue := s.probe.queue.map fun r => if r.lane = l then { r with kind := .long } else r } := by
  rw [State.requestProbe, if_pos ((probeQueued_iff s l).mpr h)]
  simp only [join_long]

theorem requestProbe_of_new {s : State} {l : LaneId} (h : l ∉ s.probe.queue.map (·.lane)) (k : ProbeKind) :
    s.requestProbe l k = State.grantProbe { s with probe := { s.probe with queue := s.probe.queue ++ [⟨l, k⟩] } } :=
  if_neg fun c => h ((probeQueued_iff s l).mp c)

theorem probe_requestProbe_of_busy {s : State} {l : LaneId} (h : l ∉ s.probe.queue.map (·.lane))
    (busy : s.probe.engine ≠ .idle) :
    (s.requestProbe l .long).probe = { s.probe with queue := s.probe.queue ++ [⟨l, .long⟩] } := by
  rw [requestProbe_of_new h, State.grantProbe, if_neg busy]

theorem probe_requestProbe_of_idle {s : State} {l : LaneId} (queue : s.probe.queue = []) (idle : s.probe.engine = .idle)
    (served : (s.lane l).mode.served = true) : (s.requestProbe l .long).probe = ⟨[], .waiting ⟨l, .long⟩, 0, 0, true⟩ := by
  have granted : State.nextServed { s with probe := { s.probe with queue := [⟨l, .long⟩] } } [⟨l, .long⟩] =
      some (⟨l, .long⟩, []) := if_pos served
  rw [requestProbe_of_new (by rw [queue]; exact List.not_mem_nil), queue, State.grantProbe, if_pos idle]
  simp only [List.nil_append, granted]

/-! ### PROBE and PROBE_UNSAT -/

/-- Whether PROBE is latched, and what PROBE_UNSAT of a lane counts. -/
def State.probeTally (s : State) (l : LaneId) : Bool × Nat := (s.latched .probe, (s.lane l).counters.probeUnsat)

theorem probeTally_congr {s t : State} {l : LaneId} (counter : (t.lane l).counters.probeUnsat = (s.lane l).counters.probeUnsat)
    (latch : t.latch = s.latch) : t.probeTally l = s.probeTally l := by
  rw [State.probeTally, State.latched, counter, latch]
  rfl

theorem probeTally_modLane {s : State} {l : LaneId} {f : LaneState → LaneState}
    (h : ∀ x : LaneState, (f x).counters.probeUnsat = x.counters.probeUnsat) :
    (s.modLane l f).probeTally l = s.probeTally l :=
  probeTally_congr (by rw [State.lane_modLane_same, h]) rfl

theorem probeTally_countLane (s : State) (l : LaneId) {c : LaneCounter} (h : c ≠ .probeUnsat) :
    (s.countLane l c).probeTally l = s.probeTally l :=
  probeTally_modLane fun x => by
    cases c
    case probeUnsat => exact absurd rfl h
    all_goals rfl

/-- OVERLOAD latched leaves PROBE as it was. -/
theorem probeTally_latchOverload (s : State) (l : LaneId) : (s.latchOverload l).probeTally l = s.probeTally l := by
  have other : (Event.overload l).mask.getLsbD Event.probe.bit = false := by revert l; decide
  unfold State.latchOverload
  split
  · rw [State.probeTally, State.latched, State.latchEvent, BitVec.getLsbD_or, other, Bool.or_false]
    rfl
  · rfl

theorem probeTally_recompute (s : State) (l : LaneId) : (s.recompute l).probeTally l = s.probeTally l :=
  (probeTally_latchOverload _ l).trans (probeTally_modLane (s := s.writeGrants l _) fun _ => rfl)

theorem probeTally_account (s : State) (l : LaneId) (e : QueueEntry) : (s.account l e).probeTally l = s.probeTally l := by
  unfold State.account
  split
  · rename_i d _
    have charged : (s.chargeRecord l e.key d).probeTally l = s.probeTally l := by
      obtain ⟨r, -, eq⟩ | ⟨-, ⟨-, eq⟩ | ⟨-, -, eq⟩ | ⟨-, -, eq⟩⟩ := chargeRecord_cases s l e.key d <;> rw [eq]
      · rfl
      · exact probeTally_countLane s l (by decide)
      · rfl
    unfold State.charge State.afterActiveSet
    split
    · exact (probeTally_recompute _ l).trans charged
    · exact charged
  · rfl

theorem probeTally_rewrite (s : State) (l : LaneId) (f : Frame) : (s.rewrite l f).2.probeTally l = s.probeTally l := by
  unfold State.rewrite
  split
  · rfl
  · split
    · rfl
    · exact probeTally_countLane s l (by decide)
    · rfl
    · exact probeTally_countLane (s.setEdge l _ _) l (by decide)

theorem probeTally_makeReady (s : State) (l : LaneId) (f : Frame) : (s.makeReady l f).probeTally l = s.probeTally l :=
  probeTally_modLane fun x => by rw [startReady_counters]

theorem probeTally_releaseHead (s : State) (l : LaneId) : (s.releaseHead l).probeTally l = s.probeTally l := by
  have out : ∀ (u : State) (f : Frame), (u.passOut l f).probeTally l = u.probeTally l := fun u f => by
    unfold State.passOut
    split
    · exact (probeTally_makeReady _ l _).trans (probeTally_rewrite u l f)
    · exact probeTally_makeReady u l f
  unfold State.releaseHead
  split
  · rfl
  · exact ((out _ _).trans (probeTally_account _ l _)).trans (probeTally_modLane fun _ => rfl)

theorem probeTally_reevaluateLoop (force : Bool) (l : LaneId) (n : Nat) : ∀ s : State,
    (State.reevaluateLoop force n l s).probeTally l = s.probeTally l := by
  induction n with
  | zero => exact fun _ => rfl
  | succ n ih =>
    intro s
    have released := (ih (s.releaseHead l)).trans (probeTally_releaseHead s l)
    unfold State.reevaluateLoop
    split
    · rfl
    · split
      · exact released
      · split
        · exact (ih _).trans ((probeTally_countLane _ l (by decide)).trans (probeTally_releaseHead s l))
        · split
          · exact released
          · rfl

theorem probeTally_reevaluate (s : State) (l : LaneId) : (s.reevaluate l).probeTally l = s.probeTally l := by
  unfold State.reevaluate
  split
  · exact probeTally_reevaluateLoop false l _ s
  · rfl

theorem probeTally_drain (s : State) (l : LaneId) : (s.drain l).probeTally l = s.probeTally l := by
  have all : ∀ (n : Nat) (u : State), (State.drainLoop n l u).probeTally l = u.probeTally l := by
    intro n
    induction n with
    | zero => exact fun _ => rfl
    | succ n ih =>
      intro u
      unfold State.drainLoop
      split
      · refine (ih _).trans (Eq.trans (probeTally_congr ?_ ?_) (probeTally_releaseHead u l))
        · rw [finishDrain_lane]
          split <;> rfl
        · unfold State.finishDrain
          split <;> rfl
      · rfl
  exact all _ s

end Sys2Proof.Machine

/-! SUPPORT. SET-LANE-MODE: the rows of its truth table one by one (R22, R25 to R32, R35, R109, R118, R143, R144, R146,
R151). -/

namespace Sys2Proof.Machine

/-! ### The rows of the truth table -/

/-- The mode that a request names. -/
def RequestedMode.mode : RequestedMode → Mode
  | .bypass => .bypass
  | .monitor => .monitor
  | .active => .active

theorem RequestedMode.mode_injective : Function.Injective RequestedMode.mode := fun a b h => by
  cases a <;> cases b <;> simp_all [RequestedMode.mode]

/-- The target of a drain toward a requested mode (R31). -/
def drainTargetFor (req : Mode) : DrainTarget := if req = .monitor then .monitor else .bypass

/-- The rows of R28's table that change the lane, by the requested mode, and what each makes of the state. -/
inductive State.ModeRow (s : State) (l : LaneId) : Mode → State → Prop where
  | monitors (old : (s.lane l).mode = .bypass ∨ (s.lane l).mode = .failsafe) : s.ModeRow l .monitor (s.enterMonitor l)
  | leaves (old : (s.lane l).mode = .monitor ∨ (s.lane l).mode = .active ∧ (s.lane l).queue = []) :
      s.ModeRow l .bypass (s.enterBypass l)
  | rests (old : (s.lane l).mode = .failsafe) : s.ModeRow l .bypass (s.setMode l .bypass .none)
  | stops (old : (s.lane l).mode = .active) (empty : (s.lane l).queue = []) :
      s.ModeRow l .monitor (s.setMode l .monitor .none)
  | retargets {req : Mode} (asks : req = .bypass ∨ req = .monitor) (old : (s.lane l).mode = .draining) :
      s.ModeRow l req (s.setMode l .draining (drainTargetFor req))
  | drains {req : Mode} (asks : req = .bypass ∨ req = .monitor) (old : (s.lane l).mode = .active)
      (holding : (s.lane l).queue ≠ []) : s.ModeRow l req (s.enterDraining l (drainTargetFor req))
  | activates (old : (s.lane l).mode = .monitor) : s.ModeRow l .active (s.enterActive l)
  | returns (old : (s.lane l).mode = .draining) : s.ModeRow l .active (s.returnToActive l)

section

variable {s : State} {l : LaneId} {r : RequestedMode}

/-- Checks 4 and 5, and the rows of the table that refuse (R27, R28). -/
theorem requestMode_refused (h : s.keepalive.state = .expired ∧ r.mode ≠ .bypass ∨
    r.mode = .active ∧ ((s.lane l).mode = .bypass ∨ (s.lane l).mode = .failsafe ∨
      (s.lane l).mode = .monitor ∧ (s.lane l).nMax = 0)) : s.requestMode l r = none := by
  obtain ⟨expired, ne⟩ | ⟨asks, h⟩ := h
  · exact if_pos ⟨expired, fun e => ne (by rw [e]; rfl)⟩
  · obtain rfl : r = .active := RequestedMode.mode_injective asks
    unfold State.requestMode
    split
    · rfl
    · obtain old | old | ⟨old, none⟩ := h <;> simp [State.changeMode, *]

theorem requestMode_open (h : s.keepalive.state = .expired → r.mode = .bypass) : s.requestMode l r = s.changeMode l r :=
  if_neg fun c => c.2 (RequestedMode.mode_injective (h c.1))

theorem requestMode_held (h : s.keepalive.state = .expired → r.mode = .bypass) (same : (s.lane l).mode = r.mode) :
    s.requestMode l r = some s := by
  rw [requestMode_open h]
  unfold State.changeMode
  rw [same]
  cases r <;> rfl

theorem requestMode_row (h : s.keepalive.state = .expired → r.mode = .bypass) (ne : (s.lane l).mode ≠ r.mode)
    (asks : r.mode = .active → (s.lane l).mode = .draining ∨ (s.lane l).mode = .monitor ∧ 1 ≤ (s.lane l).nMax) :
    ∃ u : State, s.requestMode l r = some u ∧ s.ModeRow l r.mode u := by
  rw [requestMode_open h]
  unfold State.changeMode
  split
  case h_1 | h_5 | h_9 => rename_i old; exact absurd old ne
  case h_2 => rename_i old; exact ⟨_, rfl, .monitors (.inl old)⟩
  case h_3 => rename_i old; have c := asks rfl; simp [old] at c
  case h_4 => rename_i old; exact ⟨_, rfl, .leaves (.inl old)⟩
  case h_6 =>
    rename_i old
    have room : 1 ≤ (s.lane l).nMax := by simpa [old] using asks rfl
    rw [if_pos room]
    exact ⟨_, rfl, .activates old⟩
  case h_7 =>
    rename_i old
    split
    · rename_i empty; exact ⟨_, rfl, .leaves (.inr ⟨old, empty⟩)⟩
    · rename_i holding; exact ⟨_, rfl, .drains (.inl rfl) old holding⟩
  case h_8 =>
    rename_i old
    split
    · rename_i empty; exact ⟨_, rfl, .stops old empty⟩
    · rename_i holding; exact ⟨_, rfl, .drains (.inr rfl) old holding⟩
  case h_10 => rename_i old; exact ⟨_, rfl, .retargets (.inl rfl) old⟩
  case h_11 => rename_i old; exact ⟨_, rfl, .retargets (.inr rfl) old⟩
  case h_12 => rename_i old; exact ⟨_, rfl, .returns old⟩
  case h_13 => rename_i old; exact ⟨_, rfl, .rests old⟩
  case h_14 => rename_i old; exact ⟨_, rfl, .monitors (.inr old)⟩
  case h_15 => rename_i old; have c := asks rfl; simp [old] at c

end

/-! ### The end of a drain that begins -/

/-- A DRAINING lane that holds entries drains on with its target, or has entered it (R33). -/
theorem drainLoop_ends (l : LaneId) (n : Nat) : ∀ s : State, (s.lane l).mode = .draining → (s.lane l).queue ≠ [] →
    (((State.drainLoop n l s).lane l).mode = .draining ∧
        ((State.drainLoop n l s).lane l).target = (s.lane l).target ∧ ((State.drainLoop n l s).lane l).queue ≠ []) ∨
      (((State.drainLoop n l s).lane l).mode = (if (s.lane l).target = .monitor then .monitor else .bypass) ∧
        ((State.drainLoop n l s).lane l).target = .none ∧ ((State.drainLoop n l s).lane l).queue = []) := by
  induction n with
  | zero => exact fun s mode queue => .inl ⟨mode, rfl, queue⟩
  | succ n ih =>
    intro s mode holding
    unfold State.drainLoop
    split
    · obtain ⟨hm, ht⟩ := (stays_releaseHead (l := l) (entries_any s)).modes l
      by_cases last : ((s.releaseHead l).lane l).queue = []
      · have lane := finishDrain_lane (s.releaseHead l) l
        rw [if_pos ⟨hm.trans mode, last⟩, ht] at lane
        have ended : (((s.releaseHead l).finishDrain l).lane l).mode ≠ .draining := by
          rw [lane]
          dsimp only
          split <;> nofun
        rw [drainLoop_of_not_due ((drainDue_eq_false_iff _).mpr fun m => absurd m ended), lane]
        exact .inr ⟨rfl, rfl, last⟩
      · have still : (s.releaseHead l).finishDrain l = s.releaseHead l := if_neg fun c => last c.2
        rw [still]
        have later := ih (s.releaseHead l) (hm.trans mode) last
        rwa [ht] at later
    · exact .inl ⟨mode, rfl, holding⟩

theorem drain_ends {s : State} {l : LaneId} (mode : (s.lane l).mode = .draining) (holding : (s.lane l).queue ≠ []) :
    (((s.drain l).lane l).mode = .draining ∧ ((s.drain l).lane l).target = (s.lane l).target ∧
        ((s.drain l).lane l).queue ≠ []) ∨
      (((s.drain l).lane l).mode = (if (s.lane l).target = .monitor then .monitor else .bypass) ∧
        ((s.drain l).lane l).target = .none ∧ ((s.drain l).lane l).queue = []) :=
  drainLoop_ends l _ s mode holding

/-- With frames ready the drain waits for the output (R117). -/
theorem enterDraining_of_ready {s : State} {l : LaneId} (ready : (s.lane l).ready ≠ []) (t : DrainTarget) :
    s.enterDraining l t = (s.setMode l .draining t).leaveProbe l := by
  refine drain_of_not_due ((drainDue_eq_false_iff _).mpr fun _ none => absurd ?_ ready)
  rwa [lane_leftForDrain] at none

/-! ### What a change of the mode alone leaves -/

/-- A change of a lane's mode, target and interval count, and of the probe, and of nothing else. -/
structure State.ModeOnly (s : State) (l : LaneId) (t : State) : Prop where
  lane : t.lane l = { s.lane l with
    mode := (t.lane l).mode, target := (t.lane l).target, intervalCount := (t.lane l).intervalCount }
  pool : t.pool = s.pool
  latch : t.latch = s.latch
  sent : t.fabricSent = s.fabricSent

theorem modeOnly_setMode (s : State) (l : LaneId) (m : Mode) (g : DrainTarget) : s.ModeOnly l (s.setMode l m g) :=
  ⟨by rw [lane_setMode], rfl, rfl, rfl⟩

theorem State.ModeOnly.probeOnly {s t u : State} {l : LaneId} (h : s.ModeOnly l t) (h' : t.ProbeOnly u) :
    s.ModeOnly l u := by
  obtain ⟨p, rfl⟩ := h'
  exact ⟨h.lane, h.pool, h.latch, h.sent⟩

theorem modeOnly_enterActive (s : State) (l : LaneId) : s.ModeOnly l (s.enterActive l) := by
  refine State.ModeOnly.probeOnly ?_ (probeOnly_requestProbe _ l .long)
  exact ⟨by rw [State.lane_modLane_same], rfl, rfl, rfl⟩

theorem State.ModeOnly.queue {s t : State} {l : LaneId} (h : s.ModeOnly l t) : (t.lane l).queue = (s.lane l).queue := by
  rw [h.lane]

theorem State.ModeOnly.released {s t : State} {l : LaneId} (h : s.ModeOnly l t) : s.Released l [] t := by
  have lane := h.lane
  refine State.KeepsRecords.released_nil (.of_pool h.pool (by rw [lane]) (by rw [lane])) ?_
  rw [State.outgoing, State.outgoing, h.sent, lane]

theorem State.ModeOnly.probeTally {s t : State} {l : LaneId} (h : s.ModeOnly l t) : t.probeTally l = s.probeTally l :=
  probeTally_congr (by rw [h.lane]) h.latch

/-- The rows that change the mode and the probe alone. -/
theorem State.ModeRow.modeOnly {s u : State} {l : LaneId} {req : Mode} (row : s.ModeRow l req u)
    (h : (s.lane l).mode = .monitor ∨ ((s.lane l).mode = .failsafe ∧ req = .bypass) ∨
      ((s.lane l).mode = .active ∧ ((s.lane l).queue = [] ∨ (s.lane l).ready ≠ [])) ∨
      ((s.lane l).mode = .draining ∧ req ≠ .active)) :
    s.ModeOnly l u ∧ (u.lane l).intervalCount = if req = .active then 0 else (s.lane l).intervalCount := by
  cases row with
  | monitors old =>
    obtain old | old := old <;> simp [old] at h
  | leaves _ =>
    refine ⟨(modeOnly_setMode s l _ _).probeOnly (probeOnly_leaveProbe _ l), ?_⟩
    rw [lane_enterBypass]
    rfl
  | rests _ => exact ⟨modeOnly_setMode s l _ _, by rw [lane_setMode]; rfl⟩
  | stops _ _ => exact ⟨modeOnly_setMode s l _ _, by rw [lane_setMode]; rfl⟩
  | retargets asks _ =>
    refine ⟨modeOnly_setMode s l _ _, ?_⟩
    rw [lane_setMode]
    obtain rfl | rfl := asks <;> rfl
  | drains asks old holding =>
    have ready : (s.lane l).ready ≠ [] := by simpa [old, holding] using h
    rw [enterDraining_of_ready ready]
    refine ⟨(modeOnly_setMode s l _ _).probeOnly (probeOnly_leaveProbe _ l), ?_⟩
    rw [lane_leftForDrain]
    obtain rfl | rfl := asks <;> rfl
  | activates _ => exact ⟨modeOnly_enterActive s l, by rw [lane_enterActive]; rfl⟩
  | returns old => simp [old] at h

end Sys2Proof.Machine

/-! SUPPORT. SET-LANE-MODE: what each row of the truth table leaves of the lane, its records, the probe and the rest, and
the statement that follows (R22, R25 to R32, R35, R109, R118, R143, R144, R146, R151). -/

namespace Sys2Proof.Machine

section

variable {s u : State} {l : LaneId} {req : Mode}

/-! ### Mode and target -/

theorem State.ModeRow.retargeted (row : s.ModeRow l req u) (old : (s.lane l).mode = .draining) (asks : req ≠ .active) :
    (u.lane l).mode = .draining ∧ (u.lane l).target = (if req = .monitor then .monitor else .bypass) ∧
      (u.lane l).queue = (s.lane l).queue := by
  cases row with
  | retargets _ _ => rw [lane_setMode]; exact ⟨rfl, rfl, rfl⟩
  | monitors h => simp [old] at h
  | leaves h => simp [old] at h
  | rests h | stops h _ | drains _ h _ => rw [old] at h; cases h
  | activates _ | returns _ => exact absurd rfl asks

/-- A lane that held entries drains on, or its drain has ended in the mode that was asked (R31, R33). -/
theorem State.ModeRow.drained (row : s.ModeRow l req u) (old : (s.lane l).mode = .active)
    (holding : (s.lane l).queue ≠ []) :
    ((u.lane l).mode = .draining ∧ (u.lane l).target = (if req = .monitor then .monitor else .bypass) ∧
        (u.lane l).queue ≠ []) ∨
      ((u.lane l).mode = req ∧ (u.lane l).target = .none ∧ (u.lane l).queue = []) := by
  cases row with
  | drains asks _ _ =>
    have lane := lane_leftForDrain s l (drainTargetFor req)
    have ends := drain_ends (s := (s.setMode l .draining (drainTargetFor req)).leaveProbe l) (l := l) (by rw [lane])
      (by rw [lane]; exact holding)
    rw [lane] at ends
    refine ends.imp_right fun ⟨mode, target, queue⟩ => ⟨mode.trans ?_, target, queue⟩
    obtain rfl | rfl := asks <;> rfl
  | monitors h => simp [old] at h
  | leaves h => simp [old, holding] at h
  | stops _ empty => exact absurd empty holding
  | rests h | retargets _ h | activates h | returns h => rw [old] at h; cases h

theorem State.ModeRow.waits (row : s.ModeRow l req u) (old : (s.lane l).mode = .active) (holding : (s.lane l).queue ≠ [])
    (ready : (s.lane l).ready ≠ []) : (u.lane l).mode = .draining ∧ (u.lane l).queue = (s.lane l).queue := by
  cases row with
  | drains _ _ _ => rw [enterDraining_of_ready ready, lane_leftForDrain]; exact ⟨rfl, rfl⟩
  | monitors h => simp [old] at h
  | leaves h => simp [old, holding] at h
  | stops _ empty => exact absurd empty holding
  | rests h | retargets _ h | activates h | returns h => rw [old] at h; cases h

/-- Every other change leaves the lane in the mode that was asked (R28). -/
theorem State.ModeRow.settled (row : s.ModeRow l req u)
    (h : (s.lane l).mode ≠ .active ∧ (s.lane l).mode ≠ .draining ∨ (s.lane l).mode = .active ∧ (s.lane l).queue = [] ∨
      req = .active) : (u.lane l).mode = req ∧ (u.lane l).target = .none := by
  cases row with
  | monitors _ => exact ⟨(lane_enterMonitor s l).mode, (lane_enterMonitor s l).target⟩
  | leaves _ => rw [lane_enterBypass]; exact ⟨rfl, rfl⟩
  | rests _ | stops _ _ => rw [lane_setMode]; exact ⟨rfl, rfl⟩
  | activates _ => rw [lane_enterActive]; exact ⟨rfl, rfl⟩
  | returns _ => exact ⟨by rw [State.returnToActive, lane_enterActive], by rw [State.returnToActive, lane_enterActive]⟩
  | retargets asks old => obtain rfl | rfl := asks <;> simp [old] at h
  | drains asks old holding => obtain rfl | rfl := asks <;> simp [old, holding] at h

/-! ### Entry to MONITOR -/

/-- The entry to MONITOR clears the records and what was measured, and computes B and the regime anew (R29). -/
theorem enterMonitor_spec (s : State) (l : LaneId) : (s.enterMonitor l).records l = [] ∧
    ((s.enterMonitor l).lane l).rMeas = none ∧ ((s.enterMonitor l).lane l).intervalCount = 0 ∧
    ((s.enterMonitor l).lane l).rEff = (s.lane l).params.rNominal ∧ ((s.enterMonitor l).lane l).regime = .floor ∧
    ((s.enterMonitor l).lane l).budget = min 16777215 ((s.lane l).params.bufferShare +
      (s.lane l).params.rNominal * (s.lane l).params.targetDelay / 16) := by
  obtain ⟨w, hw⟩ : ∃ w : State, w = (s.removeLaneRecords l).modLane l fun x =>
      { x with mode := .monitor, target := .none, rMeas := none, intervalCount := 0 } := ⟨_, rfl⟩
  have whole : s.enterMonitor l = w.recompute l := by rw [hw]; rfl
  have lane : w.lane l = { s.lane l with mode := .monitor, target := .none, rMeas := none, intervalCount := 0 } := by
    rw [hw, State.lane_modLane_same]
    rfl
  have records : w.records l = [] := by rw [hw]; exact records_removeLaneRecords s l
  have ledger := ledger_recompute w l l
  rw [State.ledger, State.ledger, records, List.map_nil, List.map_eq_nil_iff] at ledger
  have none : regimeOf (s.lane l).params (budgetOf (s.lane l).params (s.lane l).params.rNominal) (w.n l) = .floor := by
    rw [(numbers_of_no_records records).1]
    exact if_pos (by omega)
  rw [whole, recompute_lane, lane]
  exact ⟨ledger, rfl, rfl, rfl, none, rfl⟩

theorem State.ModeRow.monitored (row : s.ModeRow l req u)
    (old : (s.lane l).mode = .bypass ∨ (s.lane l).mode = .failsafe) (asks : req = .monitor) : u = s.enterMonitor l := by
  cases row with
  | monitors _ => rfl
  | leaves _ | rests _ | activates _ | returns _ => cases asks
  | stops h _ | retargets _ h | drains _ h _ => simp [h] at old

/-! ### Releases -/

/-- The return to ACTIVE, before the interval count is set: the queue re-evaluated step by step, nothing forced (R32,
R109, R118). -/
theorem returnToActive_reevaluated (s : State) (l : LaneId) : ∃ (v : State) (released : List QueueEntry),
    (s.modLane l fun x => { x with mode := .active, target := .none }).Reevaluated false l released v ∧
      s.returnToActive l = v.enterActive l ∧ (s.lane l).queue = released ++ (v.lane l).queue ∧
      s.Released l released v ∧ (v.lane l).mode = .active ∧ (v.lane l).target = .none ∧
      v.probe = s.probe ∧ v.probeTally l = s.probeTally l := by
  obtain ⟨w, hw⟩ : ∃ w : State, w = s.setMode l .active .none := ⟨_, rfl⟩
  have lane : w.lane l = { s.lane l with mode := .active, target := .none } := hw ▸ lane_setMode s l _ _
  have active : (w.lane l).mode = .active := by rw [lane]
  obtain ⟨released, steps, queue, out⟩ := reevaluate_spec active
  have modes := modes_reevaluateLoop false (w.lane l).queue.length l w
  have whole : w.reevaluate l = State.reevaluateLoop false (w.lane l).queue.length l w := if_pos active
  rw [← whole] at modes
  have probe : (w.reevaluate l).probe = w.probe := (congrArg State.probe (laneEvent_reevaluate w l).rest :)
  refine ⟨w.reevaluate l, released, hw ▸ steps, by rw [hw]; rfl, ?_, ?_, modes.1.trans active, ?_, ?_, ?_⟩
  · rw [← queue, lane]
  · exact (hw ▸ modeOnly_setMode s l .active .none : s.ModeOnly l w).released.append out
  · rw [modes.2, lane]
  · rw [probe, hw]; rfl
  · rw [probeTally_reevaluate, hw, (modeOnly_setMode s l _ _).probeTally]

/-- What leaves the queue of a tracking lane leaves as a release does (R22, R28). -/
theorem State.ModeRow.released (row : s.ModeRow l req u) (tracks : (s.lane l).mode.tracking = true) :
    ∃ released : List QueueEntry, (s.lane l).queue = released ++ (u.lane l).queue ∧ s.Released l released u := by
  have still : s.ModeOnly l u → ∃ released : List QueueEntry, (s.lane l).queue = released ++ (u.lane l).queue ∧
      s.Released l released u := fun h => ⟨[], h.queue.symm, h.released⟩
  cases row with
  | monitors old => obtain old | old := old <;> rw [old] at tracks <;> cases tracks
  | rests old => rw [old] at tracks; cases tracks
  | leaves _ => exact still ((modeOnly_setMode s l _ _).probeOnly (probeOnly_leaveProbe _ l))
  | stops _ _ => exact still (modeOnly_setMode s l _ _)
  | retargets _ _ => exact still (modeOnly_setMode s l _ _)
  | activates _ => exact still (modeOnly_enterActive s l)
  | drains _ _ _ =>
    have left : s.ModeOnly l ((s.setMode l .draining (drainTargetFor req)).leaveProbe l) :=
      (modeOnly_setMode s l _ _).probeOnly (probeOnly_leaveProbe _ l)
    obtain ⟨released, queue, out⟩ := drain_released ((s.setMode l .draining (drainTargetFor req)).leaveProbe l) l
    exact ⟨released, left.queue.symm.trans queue, left.released.append out⟩
  | returns _ =>
    obtain ⟨v, released, -, whole, queue, out, -⟩ := returnToActive_reevaluated s l
    have last := modeOnly_enterActive v l
    rw [whole]
    refine ⟨released, by rw [last.queue]; exact queue, ?_⟩
    have all := out.append last.released
    rwa [List.append_nil] at all

/-! ### Entry to ACTIVE -/

theorem State.ModeRow.activated (row : s.ModeRow l .active u) :
    ((s.lane l).mode = .monitor ∧ u = s.enterActive l) ∨ ((s.lane l).mode = .draining ∧ u = s.returnToActive l) := by
  cases row with
  | activates old => exact .inl ⟨old, rfl⟩
  | returns old => exact .inr ⟨old, rfl⟩
  | retargets asks _ | drains asks _ _ => obtain asks | asks := asks <;> cases asks

theorem State.ModeRow.returned (row : s.ModeRow l .active u) (old : (s.lane l).mode = .draining) :
    u = s.returnToActive l := by
  obtain ⟨old', -⟩ | ⟨-, e⟩ := row.activated
  · rw [old] at old'; cases old'
  · exact e

/-- The return from DRAINING leaves the queue empty or its head blocked (R109, R118). -/
theorem State.ModeRow.blocked (row : s.ModeRow l .active u) (old : (s.lane l).mode = .draining) : u.Blocked l := by
  obtain rfl := row.returned old
  have active : ((s.returnToActive l).lane l).mode = .active := by rw [State.returnToActive, lane_enterActive]
  obtain same | blocked | ⟨old', -⟩ := (modeChanged_returnToActive s l).active active
  · rw [same, old] at active; cases active
  · exact blocked
  · rw [old] at old'; cases old'

/-- A LONG request is placed by R143, whatever the re-evaluation did. -/
theorem State.ModeRow.asked (row : s.ModeRow l .active u) : (u.lane l).intervalCount = 0 ∧ ∃ v : State,
    v.probe = s.probe ∧ (v.lane l).mode = .active ∧ u.probe = (v.requestProbe l .long).probe := by
  have asked : ∀ w : State, w.probe = s.probe → ((w.enterActive l).lane l).intervalCount = 0 ∧ ∃ v : State,
      v.probe = s.probe ∧ (v.lane l).mode = .active ∧ (w.enterActive l).probe = (v.requestProbe l .long).probe :=
    fun w probe => ⟨by rw [lane_enterActive],
      w.modLane l fun x => { x with mode := .active, target := .none, intervalCount := 0 }, probe,
      by rw [State.lane_modLane_same], rfl⟩
  obtain ⟨-, rfl⟩ | ⟨-, rfl⟩ := row.activated
  · exact asked s rfl
  · obtain ⟨v, -, -, whole, -, -, -, -, probe, -⟩ := returnToActive_reevaluated s l
    rw [whole]
    exact asked v probe

/-- A blocked head stays, with every entry behind it (R109). -/
theorem State.Reevaluated.of_blocked {t v : State} {released : List QueueEntry} {e : QueueEntry} {rest : List QueueEntry}
    {d : ClassDecision} (h : t.Reevaluated false l released v) (queue : (t.lane l).queue = e :: rest)
    (kind : e.kind = .gated d) (fails : t.passesAdmission l e.key d.cost = false) : v = t := by
  cases h with
  | empty _ | blocked _ _ _ _ => rfl
  | follower queue' kind' _ =>
    obtain ⟨rfl, rfl⟩ := List.cons.inj (queue.symm.trans queue')
    rw [kind] at kind'
    cases kind'
  | admitted queue' kind' _ passes _ =>
    obtain ⟨rfl, rfl⟩ := List.cons.inj (queue.symm.trans queue')
    rw [kind] at kind'
    cases kind'
    rw [fails] at passes
    cases passes
  | forced _ _ tick _ _ => cases tick

/-- The return from DRAINING: the re-evaluation of the whole queue and nothing else of the lane (R32, R118). -/
theorem returnToActive_steps (s : State) (l : LaneId) : ∃ (v : State) (released : List QueueEntry),
    (s.modLane l fun x => { x with mode := .active, target := .none }).Reevaluated false l released v ∧
      (s.returnToActive l).lane l = { v.lane l with intervalCount := 0 } ∧ (s.returnToActive l).pool = v.pool ∧
      (s.returnToActive l).latch = v.latch := by
  obtain ⟨v, released, steps, whole, -, -, mode, target, -⟩ := returnToActive_reevaluated s l
  have only := modeOnly_enterActive v l
  refine ⟨v, released, steps, ?_, by rw [whole, only.pool], by rw [whole, only.latch]⟩
  rw [whole, lane_enterActive, ← mode, ← target]

theorem returnToActive_of_blocked {e : QueueEntry} {rest : List QueueEntry} {d : ClassDecision}
    (queue : (s.lane l).queue = e :: rest) (kind : e.kind = .gated d)
    (fails : s.passesAdmission l e.key d.cost = false) : (s.returnToActive l).lane l =
      { s.lane l with mode := .active, target := .none, intervalCount := 0 } ∧ (s.returnToActive l).pool = s.pool := by
  obtain ⟨v, released, steps, lane, pool, -⟩ := returnToActive_steps s l
  obtain ⟨w, hw⟩ : ∃ w : State, w = s.modLane l fun x => { x with mode := .active, target := .none } := ⟨_, rfl⟩
  rw [← hw] at steps
  have start : w.lane l = { s.lane l with mode := .active, target := .none } := by rw [hw, State.lane_modLane_same]
  have same : w.passesAdmission l e.key d.cost = s.passesAdmission l e.key d.cost :=
    passesAdmission_congr (by rw [hw]; rfl) (by rw [start]) (by rw [start]) (by rw [start]) _ _
  obtain rfl := steps.of_blocked (by rw [start]; exact queue) kind (same.trans fails)
  exact ⟨by rw [lane, start], by rw [pool, hw]; rfl⟩

/-! ### The probe -/

theorem probe_drain (s : State) (l : LaneId) : (s.drain l).probe = s.probe :=
  (congrArg State.probe (laneEvent_drain s l).rest :)

/-- A lane that leaves MONITOR and ACTIVE leaves the probe (R144). -/
theorem State.ModeRow.left (row : s.ModeRow l req u) (h : (s.lane l).mode = .monitor ∧ req = .bypass ∨
    (s.lane l).mode = .active ∧ (req = .bypass ∨ (s.lane l).queue ≠ [])) : ∃ (m : Mode) (g : DrainTarget),
      u.probe = ((s.setMode l m g).leaveProbe l).probe := by
  cases row with
  | leaves _ => exact ⟨_, _, rfl⟩
  | drains _ _ _ => exact ⟨_, _, probe_drain _ l⟩
  | monitors old => obtain old | old := old <;> simp [old] at h
  | stops old empty => simp [old, empty] at h
  | rests old | retargets _ old | activates old | returns old => simp [old] at h

/-- Its queued request goes, and where it was served the engine is granted to the next head or IDLE (R144, R146). -/
theorem State.ModeRow.left_probe (row : s.ModeRow l req u) (h : (s.lane l).mode = .monitor ∧ req = .bypass ∨
    (s.lane l).mode = .active ∧ (req = .bypass ∨ (s.lane l).queue ≠ [])) :
    ((∀ r ∈ s.probe.engine.serving.toList, r.lane ≠ l) →
      u.probe = { s.probe with queue := s.probe.queue.filter fun r => r.lane ≠ l }) ∧
    ((∃ r ∈ s.probe.engine.serving.toList, r.lane = l) → s.ProbeLegal →
      ∀ q : List ProbeRequest, s.probe.queue.filter (fun r => r.lane ≠ l) = q →
        (q = [] → u.probe = ⟨[], .idle, 0, 0, true⟩) ∧
          ∀ (r : ProbeRequest) (rest : List ProbeRequest), q = r :: rest → u.probe = ⟨rest, .waiting r, 0, 0, true⟩) := by
  obtain ⟨m, g, probe⟩ := row.left h
  refine ⟨fun other => probe.trans (probe_leaveProbe_of_other (s := s.setMode l m g) other), fun served legal q hq => ?_⟩
  rw [probe]
  refine probe_leaveProbe_of_served (s := s.setMode l m g) served hq fun r hr => ?_
  rw [← hq, List.mem_filter, decide_eq_true_eq] at hr
  have ne : r.lane ≠ l := hr.2
  have stands : (s.setMode l m g).lane r.lane = s.lane r.lane := (spares_setMode s ne m g).lane
  rw [stands]
  exact legal.2.1 r hr.1

/-- Other mode changes leave the probe (R144). -/
theorem State.ModeRow.probe_stands (row : s.ModeRow l req u) (h : (s.lane l).mode.served = false ∨
    ((s.lane l).mode = .active ∧ (s.lane l).queue = [] ∧ req = .monitor)) (asks : req ≠ .active) : u.probe = s.probe := by
  cases row with
  | monitors _ =>
    exact (congrArg State.probe (((laneEvent_removeLaneRecords s l).trans (laneEvent_modLane _ l _)).trans
      (laneEvent_recompute _ l)).rest :)
  | rests _ | stops _ _ | retargets _ _ => rfl
  | leaves old => obtain old | ⟨old, -⟩ := old <;> simp [old, Mode.served] at h
  | drains _ old holding => simp [old, holding, Mode.served] at h
  | activates _ | returns _ => exact absurd rfl asks

/-- No mode change latches PROBE or counts PROBE_UNSAT (R144). -/
theorem State.ModeRow.probeTally (row : s.ModeRow l req u) : u.probeTally l = s.probeTally l := by
  cases row with
  | monitors _ => exact (probeTally_recompute _ l).trans (probeTally_modLane fun _ => rfl)
  | leaves _ => exact ((modeOnly_setMode s l _ _).probeOnly (probeOnly_leaveProbe _ l)).probeTally
  | rests _ | stops _ _ | retargets _ _ => exact (modeOnly_setMode s l _ _).probeTally
  | drains _ _ _ =>
    exact (probeTally_drain _ l).trans ((modeOnly_setMode s l _ _).probeOnly (probeOnly_leaveProbe _ l)).probeTally
  | activates _ => exact (modeOnly_enterActive s l).probeTally
  | returns _ =>
    obtain ⟨v, -, -, whole, -, -, -, -, -, tally⟩ := returnToActive_reevaluated s l
    rw [whole]
    exact (modeOnly_enterActive v l).probeTally.trans tally

/-! ### The rest -/

theorem State.ModeRow.spares (row : s.ModeRow l req u) {l' : LaneId} (ne : l' ≠ l) : s.Spares l' u := by
  cases row with
  | monitors _ => exact spares_enterMonitor s ne
  | leaves _ => exact spares_enterBypass s ne
  | rests _ | stops _ _ | retargets _ _ => exact spares_setMode s ne _ _
  | drains _ _ _ => exact spares_enterDraining s ne _
  | activates _ => exact spares_enterActive s ne
  | returns _ => exact spares_returnToActive s ne

/-- What lies outside the lanes, the pool, the latch and the probe stands. -/
def State.OutsideStands (s t : State) : Prop :=
  { t with lanes := s.lanes, pool := s.pool, latch := s.latch, probe := s.probe } = s

theorem State.OutsideStands.trans {s t u : State} (h : s.OutsideStands t) (h' : t.OutsideStands u) : s.OutsideStands u :=
  (congrArg (fun x : State => { x with lanes := s.lanes, pool := s.pool, latch := s.latch, probe := s.probe }) h' :).trans h

theorem State.LaneEvent.outside {s t : State} {k : LaneId} (h : s.LaneEvent k t) : s.OutsideStands t :=
  (congrArg (fun x : State => { x with probe := s.probe }) h.rest :)

theorem State.ProbeOnly.outside {s t : State} (h : s.ProbeOnly t) : s.OutsideStands t := by
  obtain ⟨p, rfl⟩ := h
  rfl

theorem State.ModeRow.outside (row : s.ModeRow l req u) : s.OutsideStands u := by
  have set : ∀ (m : Mode) (g : DrainTarget), s.OutsideStands (s.setMode l m g) := fun _ _ => rfl
  cases row with
  | monitors _ =>
    exact (((laneEvent_removeLaneRecords s l).trans (laneEvent_modLane _ l _)).trans (laneEvent_recompute _ l)).outside
  | leaves _ => exact (set _ _).trans (probeOnly_leaveProbe _ l).outside
  | rests _ | stops _ _ | retargets _ _ => exact set _ _
  | drains _ _ _ => exact ((set _ _).trans (probeOnly_leaveProbe _ l).outside).trans (laneEvent_drain _ l).outside
  | activates _ => exact (laneEvent_modLane s l _).outside.trans (probeOnly_requestProbe _ l _).outside
  | returns _ =>
    exact (((set _ _).trans (laneEvent_reevaluate _ l).outside).trans (laneEvent_modLane _ l _).outside).trans
      (probeOnly_requestProbe _ l _).outside

end

end Sys2Proof.Machine

/-! SUPPORT. SET-LANE-MODE as the control engine answers it: the truth table of R28 with checks 4 and 5 of R27. -/

namespace Sys2Proof.Machine

section

variable {params : List Byte} {space : Nat} {l : LaneId} {r : RequestedMode} (s : State)

theorem effectSetLaneMode_refused (fits : 2 ≤ space) (len : 2 ≤ params.length) (lane : byteAt params 0 = l.val)
    (asks : requestedMode (byteAt params 1) = some r) (h : s.requestMode l r = none) :
    effectSetLaneMode params space s = ⟨.notNow, s.modeResults l, s⟩ := by
  unfold effectSetLaneMode
  rw [withLength_of_le len, withLane_of_val lane, asks]
  dsimp only
  rw [withSpace_of_le fits, h]

theorem effectSetLaneMode_taken {u : State} (fits : 2 ≤ space) (len : 2 ≤ params.length) (lane : byteAt params 0 = l.val)
    (asks : requestedMode (byteAt params 1) = some r) (h : s.requestMode l r = some u) :
    effectSetLaneMode params space s = ⟨.ok, u.modeResults l, u⟩ := by
  unfold effectSetLaneMode
  rw [withLength_of_le len, withLane_of_val lane, asks]
  dsimp only
  rw [withSpace_of_le fits, h]

end

/-- States that differ in the engine's frame and the last item alone. -/
theorem eq_of_apart {s t : State} (h : t.apartEngine = s.apartEngine) : ∃ (c : ControlState) (i : Option ResponseItem),
    t = { s with control := { s.control with engine := c }, lastItem := i } :=
  ⟨t.control.engine, t.lastItem, (congrArg (fun x : State =>
    { x with control := { x.control with engine := t.control.engine }, lastItem := t.lastItem }) h :)⟩

/-- Settles O31: the request is refused, for the mode held, or follows one row of the table. -/
theorem setLaneModeFollowsTheTable : Obligations.SetLaneModeFollowsTheTable := by
  unfold Obligations.SetLaneModeFollowsTheTable
  intro params s space l req now fits len lane names
  obtain ⟨r, asks, rfl⟩ : ∃ r : RequestedMode, requestedMode (byteAt params 1) = some r ∧ r.mode = req := by
    obtain ⟨byte, rfl⟩ | ⟨byte, rfl⟩ | ⟨byte, rfl⟩ := names <;> rw [byte]
    exacts [⟨.bypass, rfl, rfl⟩, ⟨.monitor, rfl, rfl⟩, ⟨.active, rfl, rfl⟩]
  obtain ⟨t, answer, item, apart⟩ := exec_command_spec (c := .setLaneMode params) rfl now
  rw [show (Instr.setLaneMode params).outcome space s = effectSetLaneMode params space s from rfl] at item apart
  refine ⟨fun refused => ⟨t, answer, ?_⟩, fun free held => ⟨t, answer, ?_⟩, fun free ne room => ⟨t, answer, ?_⟩⟩
  · rw [effectSetLaneMode_refused s fits len lane asks (requestMode_refused refused)] at item apart
    exact ⟨item, apart⟩
  · rw [effectSetLaneMode_taken s fits len lane asks (requestMode_held free held)] at item apart
    exact ⟨item, apart⟩
  · obtain ⟨u, taken, row⟩ := requestMode_row free ne room
    rw [effectSetLaneMode_taken s fits len lane asks taken] at item apart
    dsimp only at item apart
    obtain ⟨latched, unsat⟩ := Prod.mk.inj row.probeTally
    have rest : State.apartEngine { t with lanes := s.lanes, pool := s.pool, latch := s.latch, probe := s.probe } =
        s.apartEngine :=
      (congrArg (fun x : State => { x with lanes := s.lanes, pool := s.pool, latch := s.latch, probe := s.probe })
        apart :).trans (congrArg State.apartEngine row.outside :)
    obtain ⟨c, i, rfl⟩ := eq_of_apart apart
    refine ⟨item, row.retargeted, row.drained, row.waits, row.settled, fun old asks => ?_, fun tracks => ?_, fun h => ?_,
      fun active => ?_, fun h => ?_, row.probe_stands, latched, unsat, fun l' ne => ?_, rest⟩
    · obtain rfl := row.monitored old asks
      exact enterMonitor_spec s l
    · obtain ⟨released, queue, out⟩ := row.released tracks
      have all := out.append (State.KeepsRecords.released_nil (t := { u with
        control := { u.control with engine := c }, lastItem := i }) (.of_pool rfl rfl rfl) rfl)
      rw [List.append_nil] at all
      exact ⟨released, queue, all⟩
    · obtain ⟨only, count⟩ := row.modeOnly h
      have records : u.records l = s.records l := by rw [State.records, only.pool]; rfl
      exact ⟨records, only.latch, by rw [← count]; exact only.lane⟩
    · rw [active] at row
      obtain ⟨count, v, probe, mode, asked⟩ := row.asked
      rw [← probe]
      refine ⟨count, fun old e rest queue => row.blocked old e rest queue, fun old => ?_, fun e rest d old queue kind fails => ?_,
        fun queued => asked.trans (probe_requestProbe_of_queued queued),
        fun new busy => asked.trans (probe_requestProbe_of_busy new busy),
        fun empty idle => asked.trans (probe_requestProbe_of_idle empty idle (by rw [mode]; rfl))⟩
      · obtain rfl := row.returned old
        exact returnToActive_steps s l
      · obtain rfl := row.returned old
        exact returnToActive_of_blocked queue kind fails
    · obtain ⟨other, served⟩ := row.left_probe h
      refine ⟨other, fun own legal => ?_⟩
      cases hq : s.probe.queue.filter fun r => r.lane ≠ l with
      | nil => exact (served own legal _ hq).1 rfl
      | cons r rest => exact (served own legal _ hq).2 r rest rfl
    · exact ⟨(row.spares ne).lane, (row.spares ne).records⟩

end Sys2Proof.Machine

/-! SUPPORT. WRITE-CLASS and the lookup: which entry of the match table a segment selects (R38 to R42), and the entry that
a WRITE-CLASS stores (R50 to R52). -/

namespace Sys2Proof.Machine

/-! ### The lookup -/

/-- The low 16 bits of an address are its last two bytes (R39). -/
theorem addrLow16_eq (a : List Byte) : addrLow16 a = beNat (a.drop (a.length - 2)) := by
  have short : (a.drop (a.length - 2)).length ≤ 2 := by
    rw [List.length_drop]
    omega
  rw [addrLow16, fieldAt, bytesAt, List.take_of_length_le short]

theorem matchesSegment_iff (w : MatchWindow) (l : LaneId) (g : Segment) :
    w.matchesSegment l g = true ↔ w.covers l g := by
  have value : g.value w.field = g.tested w.field := by
    cases h : w.field
    case remoteAddrLow16 => exact addrLow16_eq g.key.remoteAddr
    all_goals rfl
  simp only [MatchWindow.matchesSegment, MatchWindow.takesPart, MatchWindow.tests, MatchWindow.covers, value,
    Bool.and_eq_true, decide_eq_true_eq, and_assoc]

theorem zipIdx_getElem (s : State) {n : Nat} (h : n < s.windows.toList.zipIdx.length) :
    ∃ i : Fin 64, i.val = n ∧ s.windows.toList.zipIdx[n] = (s.windows.get i, n) := by
  have lt : n < 64 := by simpa using h
  refine ⟨⟨n, lt⟩, rfl, ?_⟩
  simp [Vector.get_eq_getElem]

/-- In one tier the entry of lowest index that covers the segment is found (R41). -/
theorem firstInTier_of_least {s : State} {l : LaneId} {g : Segment} {i : Fin 64} (covers : (s.windows.get i).covers l g)
    (least : ∀ j : Fin 64, (s.windows.get j).covers l g → (s.windows.get j).tier = (s.windows.get i).tier → i ≤ j) :
    s.firstInTier l g (s.windows.get i).tier = some (s.windows.get i, i.val) := by
  have bound : i.val < s.windows.toList.zipIdx.length := by simp
  have entry : s.windows.toList.zipIdx[i.val] = (s.windows.get i, i.val) := by simp [Vector.get_eq_getElem]
  refine List.find?_eq_some_iff_getElem.mpr ⟨?_, i.val, bound, entry, fun n before => ?_⟩
  · simp only [decide_true, Bool.true_and]
    exact (matchesSegment_iff _ l g).mpr covers
  · obtain ⟨j, rfl, e⟩ := zipIdx_getElem s (before.trans bound)
    rw [e, Bool.not_eq_true', Bool.eq_false_iff]
    intro found
    obtain ⟨tier, covered⟩ := Bool.and_eq_true_iff.mp found
    have := least j ((matchesSegment_iff _ l g).mp covered) (of_decide_eq_true tier)
    omega

theorem firstInTier_eq_none {s : State} {l : LaneId} {g : Segment} {t : Tier}
    (h : ∀ j : Fin 64, (s.windows.get j).covers l g → (s.windows.get j).tier ≠ t) : s.firstInTier l g t = none := by
  refine List.find?_eq_none.mpr fun x hx found => ?_
  obtain ⟨n, bound, rfl⟩ := List.getElem_of_mem hx
  obtain ⟨j, -, e⟩ := zipIdx_getElem s bound
  rw [e] at found
  obtain ⟨tier, covered⟩ := Bool.and_eq_true_iff.mp found
  exact h j ((matchesSegment_iff _ l g).mp covered) (of_decide_eq_true tier)

/-- The tiers are asked in the order of their codes, so a lookup selects the first of those with an entry found. -/
theorem selectedWindow_of_tier {s : State} {l : LaneId} {g : Segment} {x : MatchWindow × Nat} (t : Tier)
    (found : s.firstInTier l g t = some x)
    (before : ∀ t' : Tier, t'.code.toNat < t.code.toNat → s.firstInTier l g t' = none) :
    s.selectedWindow l g = some x := by
  unfold State.selectedWindow
  cases t with
  | first => rw [found]; rfl
  | second => rw [before .first (by decide), found]; rfl
  | third => rw [before .first (by decide), before .second (by decide), found]; rfl
  | fallback => rw [before .first (by decide), before .second (by decide), before .third (by decide), found]; rfl

theorem lookup_of_first {s : State} {l : LaneId} {g : Segment} {i : Fin 64} (covers : (s.windows.get i).covers l g)
    (first : ∀ j : Fin 64, (s.windows.get j).covers l g →
      (s.windows.get i).tier.code.toNat < (s.windows.get j).tier.code.toNat ∨
        ((s.windows.get i).tier = (s.windows.get j).tier ∧ i ≤ j)) :
    s.lookup l g = ⟨some i.val, (s.windows.get i).role,
      if (s.windows.get i).role = .request then (s.windows.get i).cost else 0, (s.windows.get i).weight⟩ := by
  have found : s.firstInTier l g (s.windows.get i).tier = some (s.windows.get i, i.val) :=
    firstInTier_of_least covers fun j hj tier => (first j hj).elim (fun lt => absurd lt (by rw [tier]; omega)) And.right
  have before : ∀ t' : Tier, t'.code.toNat < (s.windows.get i).tier.code.toNat → s.firstInTier l g t' = none := by
    refine fun t' lt => firstInTier_eq_none fun j hj tier => ?_
    subst tier
    obtain later | ⟨same, -⟩ := first j hj
    · omega
    · rw [same] at lt
      omega
  rw [State.lookup, selectedWindow_of_tier _ found before]

theorem lookup_of_none {s : State} {l : LaneId} {g : Segment} (uncovered : ∀ i : Fin 64, ¬ (s.windows.get i).covers l g) :
    s.lookup l g = ⟨none, .plain, 0, (s.lane l).params.defaultWeight⟩ := by
  have empty : ∀ t : Tier, s.firstInTier l g t = none := fun t =>
    firstInTier_eq_none fun j hj => absurd hj (uncovered j)
  rw [State.lookup, State.selectedWindow, empty, empty, empty, empty]
  rfl

/-! ### The entry of WRITE-CLASS -/

section

variable {v : Nat} (h : v < 256)

include h

/-- Below 256 a byte's code decides its value. -/
theorem eq_of_code {c : Byte} (code : c = BitVec.ofNat 8 v) : v = c.toNat := by
  rw [code, BitVec.toNat_ofNat, Nat.mod_eq_of_lt h]

theorem enableOf_of_code {en : Bool} (code : boolByte en = BitVec.ofNat 8 v) : enableOf v = some en := by
  rw [eq_of_code h code]
  cases en <;> rfl

theorem tierOf_of_code {t : Tier} (code : t.code = BitVec.ofNat 8 v) : tierOf v = some t := by
  rw [eq_of_code h code]
  cases t <;> rfl

theorem matchFieldOf_of_code {f : MatchField} (code : f.code = BitVec.ofNat 8 v) : matchFieldOf v = some f := by
  rw [eq_of_code h code]
  cases f <;> rfl

theorem roleOf_of_code {r : Role} (code : r.code = BitVec.ofNat 8 v) : roleOf v = some r := by
  rw [eq_of_code h code]
  cases r <;> rfl

end

/-- A base with its low `k` bits cleared (R51). -/
theorem alignedBase_toNat {v : Nat} (h : v < 65536) (k : Nat) :
    (BitVec.ofNat 16 (v / 2 ^ k * 2 ^ k)).toNat = v - v % 2 ^ k := by
  have below : v / 2 ^ k * 2 ^ k ≤ v := Nat.div_mul_le_self v (2 ^ k)
  have split := Nat.div_add_mod' v (2 ^ k)
  rw [BitVec.toNat_ofNat, Nat.mod_eq_of_lt (by omega)]
  omega

/-- What a WRITE-CLASS whose codes are defined stores, and whether it reports a clamp (R50, R51). -/
theorem classEntryAt_of_codes {params : List Byte} {en : Bool} {ti : Tier} {fi : MatchField} {ro : Role}
    (enable : boolByte en = BitVec.ofNat 8 (byteAt params 1)) (tier : ti.code = BitVec.ofNat 8 (byteAt params 2))
    (field : fi.code = BitVec.ofNat 8 (byteAt params 3)) (role : ro.code = BitVec.ofNat 8 (byteAt params 10)) :
    ∃ w : MatchWindow, classEntryAt params 1 = some w ∧
      w.enable = en ∧ w.tier = ti ∧ w.field = fi ∧ w.role = ro ∧ w.k = min 16 (byteAt params 6) ∧
      w.base.toNat = fieldAt params 4 2 - fieldAt params 4 2 % 2 ^ w.k ∧ w.dc.toNat = fieldAt params 7 2 ∧
      w.lanes.toNat = byteAt params 9 ∧ w.cost = fieldAt params 11 3 ∧
      w.weight = max 1 (min 15 (byteAt params 14)) := by
  have en' : enableOf (fieldAt params 1 1) = some en := enableOf_of_code (byteAt_lt params 1) enable
  have ti' : tierOf (fieldAt params (1 + 1) 1) = some ti := tierOf_of_code (byteAt_lt params 2) tier
  have fi' : matchFieldOf (fieldAt params (1 + 2) 1) = some fi := matchFieldOf_of_code (byteAt_lt params 3) field
  have ro' : roleOf (fieldAt params (1 + 9) 1) = some ro := roleOf_of_code (byteAt_lt params 10) role
  refine ⟨_, by rw [classEntryAt, en', ti', fi', ro'], rfl, rfl, rfl, rfl, rfl, ?_, ?_, ?_, rfl, rfl⟩
  · exact alignedBase_toNat (fieldAt_lt params 4 2) _
  · exact (BitVec.toNat_ofNat _ 16).trans (Nat.mod_eq_of_lt (fieldAt_lt params 7 2))
  · exact (BitVec.toNat_ofNat _ 8).trans (Nat.mod_eq_of_lt (byteAt_lt params 9))

theorem classEntryClamped_code (params : List Byte) : (okOr (classEntryClamped params 1)).code =
    if byteAt params 6 ≤ 16 ∧ 1 ≤ byteAt params 14 ∧ byteAt params 14 ≤ 15 then 0x00 else 0x01 := by
  have clamps : classEntryClamped params 1 = true ↔
      ¬ (byteAt params 6 ≤ 16 ∧ 1 ≤ byteAt params 14 ∧ byteAt params 14 ≤ 15) := by
    simp only [classEntryClamped, byteAt, Nat.reduceAdd, Bool.or_eq_true, decide_eq_true_eq]
    omega
  split
  · rename_i inRange
    rw [Bool.eq_false_iff.mpr fun c => clamps.mp c inRange]
    rfl
  · rename_i outside
    rw [clamps.mpr outside]
    rfl

theorem classIndexOf_of_val {v : Nat} {i : Fin 64} (h : v = i.val) : classIndexOf v = some i := by
  subst h
  exact dif_pos i.isLt

theorem effectWriteClass_eq {params : List Byte} {space : Nat} {i : Fin 64} {w : MatchWindow} (s : State)
    (fits : 15 ≤ space) (len : 15 ≤ params.length) (index : byteAt params 0 = i.val)
    (entry : classEntryAt params 1 = some w) : effectWriteClass params space s =
      ⟨okOr (classEntryClamped params 1), BitVec.ofNat 8 i.val :: w.bytes,
        { s with windows := s.windows.set i.val w i.isLt }⟩ := by
  have stored : (s.windows.set i.val w i.isLt).get i = w := by simp [Vector.get_eq_getElem]
  unfold effectWriteClass
  rw [withLength_of_le len, classIndexOf_of_val index]
  dsimp only
  rw [entry]
  dsimp only
  rw [withSpace_of_le fits, State.classReadout, stored, beBytes_one]
  rfl

/-- Settles O37: the lookup finds the first tier with an entry that covers the value and the lowest index in it, and the
entry of a WRITE-CLASS is read field by field from its parameters. -/
theorem writeClassReplacesTheEntry : Obligations.WriteClassReplacesTheEntry := by
  unfold Obligations.WriteClassReplacesTheEntry
  refine ⟨fun s l g => ⟨fun i covers first => lookup_of_first covers first, lookup_of_none⟩, ?_⟩
  intro params s space i en ti fi ro now fits len index enable tier field role
  obtain ⟨w, entry, en', ti', fi', ro', k, base, dc, lanes, cost, weight⟩ := classEntryAt_of_codes enable tier field role
  obtain ⟨t, answer, item, apart⟩ := exec_command_spec (c := .writeClass params) rfl now
  rw [show (Instr.writeClass params).outcome space s = effectWriteClass params space s from rfl,
    effectWriteClass_eq s fits len index entry] at item apart
  rw [classEntryClamped_code] at item
  exact ⟨t, w, answer, en', ti', fi', ro', k, base, dc, lanes, cost, weight, item, apart⟩

end Sys2Proof.Machine

/-! SUPPORT. The readouts of chapter Formats, Signals and Straps, each as its fields packed one behind the other, and the
four commands that return them (R53, R75, R163, R167, R169, R182). -/

namespace Sys2Proof.Machine

/-! ### Fields packed one behind the other -/

/-- Fields (size, value) one behind the other, each most significant byte first (R182). -/
def packed (fields : List (Nat × Nat)) : List Byte := fields.flatMap fun x => beBytes x.1 x.2

/-- Such fields with the offsets at which they stand when the first one stands at `off`. -/
def placed : Nat → List (Nat × Nat) → List (Nat × Nat × Nat)
  | _, [] => []
  | off, x :: rest => (off, x) :: placed (off + x.1) rest

/-- The offset behind such fields. -/
def behind (off : Nat) (fields : List (Nat × Nat)) : Nat := fields.foldl (fun n x => n + x.1) off

theorem packed_cons (x : Nat × Nat) (rest : List (Nat × Nat)) : packed (x :: rest) = beBytes x.1 x.2 ++ packed rest := rfl

theorem packed_nil : packed [] = [] := rfl

theorem packed_append (xs ys : List (Nat × Nat)) : packed (xs ++ ys) = packed xs ++ packed ys := List.flatMap_append

theorem length_packed (fields : List (Nat × Nat)) : ∀ off : Nat, off + (packed fields).length = behind off fields := by
  induction fields with
  | nil => exact fun _ => rfl
  | cons x rest ih =>
    intro off
    rw [packed_cons, List.length_append, beBytes_length, ← Nat.add_assoc]
    exact ih (off + x.1)

theorem fieldAt_packed (fields : List (Nat × Nat)) : ∀ pre : List Byte, ∀ x ∈ placed pre.length fields,
    fieldAt (pre ++ packed fields) x.1 x.2.1 = x.2.2 % 256 ^ x.2.1 := by
  induction fields with
  | nil => exact fun _ _ h => nomatch h
  | cons y rest ih =>
    intro pre x hx
    obtain rfl | later := List.mem_cons.mp hx
    · rw [packed_cons, fieldAt, bytesAt, List.drop_left, List.take_left' (beBytes_length y.1 y.2), beNat_beBytes]
    · rw [packed_cons, ← List.append_assoc]
      exact ih (pre ++ beBytes y.1 y.2) x (by rw [List.length_append, beBytes_length]; exact later)

/-- Bytes that are these fields packed one behind the other are laid out as they stand. -/
theorem laidOut_of_packed {out : List Byte} {size : Nat} {fields : List (Nat × Nat × Nat)}
    (bytes : out = packed (fields.map Prod.snd)) (total : behind 0 (fields.map Prod.snd) = size)
    (places : placed 0 (fields.map Prod.snd) = fields) : laidOut out size fields := by
  subst bytes
  have fields_at := fieldAt_packed (fields.map Prod.snd) []
  rw [List.length_nil, places] at fields_at
  exact ⟨by rw [← total, ← length_packed, Nat.zero_add], fields_at⟩

/-! ### The pieces of a readout as fields -/

theorem boolByte_eq (b : Bool) : boolByte b = BitVec.ofNat 8 (yesOrNo b) := by cases b <;> rfl

theorem orFF_eq (v : Option Nat) : orFF v = BitVec.ofNat 8 (v.getD 0xFF) := by cases v <;> rfl

theorem beBytes_zero (n : Nat) : beBytes n 0 = zeros n := by
  induction n with
  | zero => rfl
  | succ n ih => rw [beBytes, ih, Nat.zero_div, zeros, zeros, List.replicate_succ]; rfl

theorem optBytes_eq (n : Nat) (v : Option Nat) :
    optBytes n v = BitVec.ofNat 8 (yesOrNo v.isSome) :: beBytes n (v.getD 0) := by
  cases v with
  | none => rw [Option.getD_none, beBytes_zero]; rfl
  | some v => rfl

theorem beNat_cons (b : Byte) (bs : List Byte) : beNat (b :: bs) = b.toNat * 256 ^ bs.length + beNat bs := by
  simpa [beNat] using beNat_foldl bs (0 * 256 + b.toNat)

/-- A field of `n` bytes does not hold what lies above them. -/
theorem beBytes_mul_add (n v : Nat) : ∀ m : Nat, beBytes n (m * 256 ^ n + v) = beBytes n v := by
  induction n with
  | zero => exact fun _ => rfl
  | succ n ih =>
    intro m
    have shift : m * 256 ^ (n + 1) = (m * 256) * 256 ^ n := by rw [Nat.pow_succ]; ring
    have top : (m * 256 * 256 ^ n + v) / 256 ^ n = m * 256 + v / 256 ^ n := by
      rw [Nat.add_comm, Nat.add_mul_div_right _ _ (Nat.pow_pos (by decide)), Nat.add_comm]
    rw [shift, beBytes, beBytes, ih, top]
    congr 1
    exact BitVec.eq_of_toNat_eq (by simp)

/-- The bytes of a field are those of its value. -/
theorem beBytes_beNat (bs : List Byte) : beBytes bs.length (beNat bs) = bs := by
  induction bs with
  | nil => rfl
  | cons b rest ih =>
    have top : (b.toNat * 256 ^ rest.length + beNat rest) / 256 ^ rest.length = b.toNat := by
      rw [Nat.add_comm, Nat.add_mul_div_right _ _ (Nat.pow_pos (by decide)), Nat.div_eq_of_lt (beNat_lt rest), Nat.zero_add]
    rw [List.length_cons, beNat_cons, beBytes, top, beBytes_mul_add, ih, BitVec.ofNat_toNat, BitVec.setWidth_eq]

theorem beNat_append_zeros (bs : List Byte) (n : Nat) : beNat (bs ++ zeros n) = beNat bs * 256 ^ n := by
  have none : beNat (zeros n) = 0 := by rw [← beBytes_zero, beNat_beBytes, Nat.zero_mod]
  rw [beNat, List.foldl_append, beNat_foldl, none, zeros_length]
  rfl

/-- An address in its 16 bytes, with what it leaves zero (R182). -/
theorem addrField_eq {a : List Byte} (h : a.length ≤ 16) : addrField a = beBytes 16 (addressValue a) := by
  have size : (addrField a).length = 16 := by
    rw [addrField, List.length_append, zeros_length]
    omega
  rw [← beBytes_beNat (addrField a), size, addrField, beNat_append_zeros, addressValue]

theorem versionCode_eq (v : IpVersion) : v.code = BitVec.ofNat 8 (if v = .v4 then 4 else 6) := by cases v <;> rfl

/-- The probe queue's 8 entries, the unused ones zero fill (R143). -/
theorem packed_requests (q : List ProbeRequest) : ∀ n : Nat, q.length ≤ n →
    packed ((List.range n).flatMap fun i =>
        [(1, (q[i]?.map (·.lane.val)).getD 0), (1, (q[i]?.map (·.kind.code.toNat)).getD 0)]) =
      (q.flatMap fun r => [BitVec.ofNat 8 r.lane.val, r.kind.code]) ++ zeros (2 * (n - q.length)) := by
  induction q with
  | nil =>
    intro n _
    induction n with
    | zero => rfl
    | succ n ih =>
      rw [List.range_succ, List.flatMap_append, packed_append, ih (Nat.zero_le n)]
      simp [packed, beBytes_one, zeros, Nat.mul_add, List.replicate_add]
  | cons r rest ih =>
    intro n h
    obtain ⟨m, rfl⟩ : ∃ m, n = m + 1 := ⟨n - 1, by simp at h; omega⟩
    rw [List.range_succ_eq_map, List.flatMap_cons, packed_append, List.flatMap_map, List.flatMap_cons, List.length_cons,
      Nat.add_sub_add_right, List.append_assoc, ← ih m (Nat.le_of_succ_le_succ h)]
    simp [packed, beBytes_one]

theorem queueBytes_eq {p : Probe} (few : p.queue.length ≤ 8) : p.queueBytes =
    packed ((1, p.queue.length) :: (List.range 8).flatMap fun i =>
        [(1, (p.queue[i]?.map (·.lane.val)).getD 0), (1, (p.queue[i]?.map (·.kind.code.toNat)).getD 0)]) := by
  have unused : 16 - (p.queue.flatMap fun r => [BitVec.ofNat 8 r.lane.val, r.kind.code]).length =
      2 * (8 - p.queue.length) := by
    simp
    omega
  rw [packed_cons, packed_requests p.queue 8 few, Probe.queueBytes, unused, List.append_assoc]

theorem engineBytes_eq (p : Probe) : p.engineBytes = packed (p.engineFields.map Prod.snd) := by
  unfold Probe.engineBytes Probe.engineFields
  cases p.engine <;> simp [packed, beBytes_one, beBytes_zero, zeros]

theorem stagedBytes_eq (t : Timer) : t.stagedBytes =
    packed [(1, yesOrNo t.staged.isSome), (2, (t.staged.getD (0, 0)).1), (2, (t.staged.getD (0, 0)).2)] := by
  unfold Timer.stagedBytes
  cases t.staged <;> simp [packed, beBytes_one, beBytes_zero, zeros, yesOrNo]

/-! ### The five layouts -/

theorem paramBytes_laidOut (p : LaneParams) : laidOut p.bytes 18 (paramFields p) := by
  refine laidOut_of_packed ?_ rfl rfl
  simp [LaneParams.bytes, paramFields, packed]

theorem laneReadout_laidOut (s : State) (l : LaneId) : laidOut (s.laneReadout l) 47 (s.laneFields l) := by
  refine laidOut_of_packed ?_ rfl rfl
  simp [State.laneReadout, LaneParams.bytes, State.laneFields, paramFields, packed, optBytes_eq, beBytes_one]

theorem classBytes_laidOut (i : Fin 64) (w : MatchWindow) :
    laidOut (BitVec.ofNat 8 i.val :: w.bytes) 15 (classFields i.val w) := by
  refine laidOut_of_packed ?_ rfl rfl
  simp [MatchWindow.bytes, classFields, packed, boolByte_eq, beBytes_one]

theorem recordFields_places (s : State) (r : FlowRecord) : behind 0 ((s.recordFields r).map Prod.snd) = 80 ∧
    placed 0 ((s.recordFields r).map Prod.snd) = s.recordFields r := by
  unfold State.recordFields
  generalize (if r.key.version = .v4 then 4 else 6 : Nat) = version
  split <;> exact ⟨rfl, rfl⟩

theorem recordReadout_eq (s : State) {r : FlowRecord} (station : r.key.stationAddr.length ≤ 16)
    (remote : r.key.remoteAddr.length ≤ 16) : s.recordReadout r = packed ((s.recordFields r).map Prod.snd) := by
  unfold State.recordReadout State.recordFields RecordState.handshakeBytes
  rw [addrField_eq station, addrField_eq remote]
  have edge : (r.lastEdge.map (·.toNat)).getD 0 = (r.lastEdge.getD 0).toNat := by cases r.lastEdge <;> rfl
  obtain (o | _ | _) | _ | _ := r.state <;>
    simp only [packed_cons, packed_nil, List.map_cons, List.map_nil, List.append_assoc, List.cons_append, List.nil_append,
      List.append_nil, beBytes_one, boolByte_eq, orFF_eq, optBytes_eq, versionCode_eq, Option.isSome_map, edge, beBytes_zero,
      BitVec.ofNat_toNat, BitVec.setWidth_eq] <;>
    rfl

theorem recordReadout_laidOut (s : State) (r : FlowRecord) (station : r.key.stationAddr.length ≤ 16)
    (remote : r.key.remoteAddr.length ≤ 16) : laidOut (s.recordReadout r) 80 (s.recordFields r) :=
  laidOut_of_packed (recordReadout_eq s station remote) (recordFields_places s r).1 (recordFields_places s r).2

theorem chipReadout_eq {s : State} (few : s.probe.queue.length ≤ 8) :
    s.chipReadout = packed (s.chipFields.map Prod.snd) := by
  unfold State.chipReadout State.chipFields
  rw [engineBytes_eq, stagedBytes_eq, queueBytes_eq few]
  simp only [packed_append, packed_cons, packed_nil, List.map_append, List.map_cons, List.map_nil, List.map_flatMap,
    List.append_assoc, List.cons_append, List.nil_append, List.append_nil, beBytes_one, allLanes, BitVec.ofNat_toNat,
    BitVec.setWidth_eq]

theorem chipReadout_laidOut {s : State} (legal : s.ProbeLegal) : laidOut s.chipReadout 67 s.chipFields := by
  have few : s.probe.queue.length ≤ 8 := by
    simpa using legal.1.length_le_card
  have places : behind 0 (s.chipFields.map Prod.snd) = 67 ∧ placed 0 (s.chipFields.map Prod.snd) = s.chipFields := by
    unfold State.chipFields Probe.engineFields
    split <;> exact ⟨rfl, rfl⟩
  exact laidOut_of_packed (chipReadout_eq few) places.1 places.2

/-! ### The four commands -/

theorem effectReadFlows_eq {params : List Byte} {space : Nat} {l : LaneId} {found : List FlowRecord} {r : Nat} (s : State)
    (fits : 4 ≤ space) (len : 4 ≤ params.length) (lane : byteAt params 0 = l.val) (start : fieldAt params 1 2 < 1024)
    (records : found = (s.records l).filter fun x => fieldAt params 1 2 ≤ x.slot)
    (count : r = min (min 18 (byteAt params 3)) (min ((space - 4) / 80) found.length)) :
    effectReadFlows params space s = ⟨okOr (decide (18 < byteAt params 3)),
      BitVec.ofNat 8 r :: optBytes 2 ((found[r]?).map (·.slot)) ++ (found.take r).flatMap s.recordReadout, s⟩ := by
  have same : s.recordsFrom l (fieldAt params 1 2) = found := records.symm
  unfold effectReadFlows
  rw [withLength_of_le len, withLane_of_val lane]
  dsimp only
  rw [if_neg (show ¬ Config.poolSlots ≤ fieldAt params 1 2 from Nat.not_le.mpr start), withSpace_of_le fits, same, ← count,
    List.head?_drop, beBytes_one]
  rfl

theorem okOr_decide_code (p : Prop) [Decidable p] : (okOr (decide p)).code = if p then 0x01 else 0x00 := by
  by_cases h : p <;> simp [h, okOr, Status.code]

/-- The codes of Table 11-3 that the readouts carry. -/
theorem codes_of_table :
    [Mode.bypass, .monitor, .active, .draining, .failsafe].map Mode.code = [0, 1, 2, 3, 4] ∧
    [DrainTarget.bypass, .monitor, .none].map DrainTarget.code = [0, 1, 0xFF] ∧
    [Regime.floor, .fallback].map Regime.code = [0, 1] ∧ [ProbeKind.short, .long].map ProbeKind.code = [0, 1] ∧
    [MonitorState.off, .running, .expired].map MonitorState.code = [0, 1, 2] ∧
    [Tier.first, .second, .third, .fallback].map Tier.code = [0, 1, 2, 3] ∧
    [MatchField.remotePort, .stationPort, .dscp, .remoteAddrLow16].map MatchField.code = [0, 1, 2, 3] ∧
    [Role.plain, .request, .exempt].map Role.code = [0, 1, 2] ∧
    RecordState.opened.code = 1 ∧ RecordState.closing.code = 2 ∧ ∀ h : Handshake, (RecordState.learning h).code = 0 :=
  ⟨rfl, rfl, rfl, rfl, rfl, rfl, rfl, rfl, rfl, rfl, fun _ => rfl⟩

/-- Settles O27: each command answers its readout on the state as it stands, and each readout is its fields packed one
behind the other. -/
theorem readsReturnAndChangeNothing : Obligations.ReadsReturnAndChangeNothing := by
  unfold Obligations.ReadsReturnAndChangeNothing
  refine ⟨fun params s space now fits => ?_, fun params s space l now fits len lane => ?_,
    fun params s space i now fits len index => ?_, fun params s space l found r now fits len lane start records count => ?_,
    laneReadout_laidOut, fun s => chipReadout_laidOut, recordReadout_laidOut, classBytes_laidOut, paramBytes_laidOut,
    codes_of_table⟩
  · obtain ⟨t, answer, item, apart⟩ := exec_command_spec (c := .readChip params) rfl now
    rw [show (Instr.readChip params).outcome space s = effectReadChip params space s from rfl, effectReadChip,
      withSpace_of_le fits] at item apart
    exact ⟨t, answer, item, apart⟩
  · obtain ⟨t, answer, item, apart⟩ := exec_command_spec (c := .readLane params) rfl now
    rw [show (Instr.readLane params).outcome space s = effectReadLane params space s from rfl, effectReadLane,
      withLength_of_le len, withLane_of_val lane, withSpace_of_le fits] at item apart
    exact ⟨t, answer, item, apart⟩
  · obtain ⟨t, answer, item, apart⟩ := exec_command_spec (c := .readClass params) rfl now
    rw [show (Instr.readClass params).outcome space s = effectReadClass params space s from rfl, effectReadClass,
      withLength_of_le len, classIndexOf_of_val index] at item apart
    dsimp only at item apart
    rw [withSpace_of_le fits, State.classReadout, beBytes_one] at item apart
    exact ⟨t, answer, item, apart⟩
  · obtain ⟨t, answer, item, apart⟩ := exec_command_spec (c := .readFlows params) rfl now
    rw [show (Instr.readFlows params).outcome space s = effectReadFlows params space s from rfl,
      effectReadFlows_eq s fits len lane start records count] at item apart
    rw [okOr_decide_code] at item
    exact ⟨t, answer, item, apart⟩

end Sys2Proof.Machine

/-! SUPPORT. The report of a segment to the flow table, as one change of the record it reaches or one creation (R57 to R63),
and the hand-on of an event that moves nothing the other blocks read (R68). -/

namespace Sys2Proof.Machine

/-! ### The steps of a report on a record -/

/-- Step 2 of R59 on a record. -/
def FlowRecord.afterSyn (r : FlowRecord) (g : Segment) (d : ClassDecision) : FlowRecord :=
  if g.syn then r.onSyn g d else r

/-- Step 3 of R59 on a record. -/
def FlowRecord.afterClose (r : FlowRecord) (g : Segment) : FlowRecord :=
  if g.rst = true ∨ (g.direction = .inbound ∧ g.fin = true) then { r with state := .closing } else r

/-- Step 4 of R59 on a record. -/
def FlowRecord.afterPayload (r : FlowRecord) (g : Segment) : FlowRecord :=
  if g.direction = .inbound ∧ 0 < g.payloadLen then r.countPayload g.payloadLen g.syn else r

/-- Steps 2 to 5 of R59 on a record. -/
def FlowRecord.reported (r : FlowRecord) (g : Segment) (d : ClassDecision) : FlowRecord :=
  (((r.afterSyn g d).afterClose g).afterPayload g).markSeen

/-- A change of a record that leaves where it stands. -/
def KeepsPlace (f : FlowRecord → FlowRecord) : Prop :=
  ∀ r : FlowRecord, (f r).slot = r.slot ∧ (f r).lane = r.lane ∧ (f r).key = r.key

theorem KeepsPlace.comp {f h : FlowRecord → FlowRecord} (hf : KeepsPlace f) (hh : KeepsPlace h) :
    KeepsPlace fun r => h (f r) := fun r =>
  ⟨(hh _).1.trans (hf r).1, (hh _).2.1.trans (hf r).2.1, (hh _).2.2.trans (hf r).2.2⟩

theorem keepsPlace_afterSyn (g : Segment) (d : ClassDecision) : KeepsPlace (·.afterSyn g d) := by
  intro r
  dsimp only [FlowRecord.afterSyn]
  split
  · unfold FlowRecord.onSyn
    split <;> (try split) <;> exact ⟨rfl, rfl, rfl⟩
  · exact ⟨rfl, rfl, rfl⟩

theorem keepsPlace_afterClose (g : Segment) : KeepsPlace (·.afterClose g) := by
  intro r
  dsimp only [FlowRecord.afterClose]
  split <;> exact ⟨rfl, rfl, rfl⟩

theorem keepsPlace_afterPayload (g : Segment) : KeepsPlace (·.afterPayload g) := by
  intro r
  dsimp only [FlowRecord.afterPayload]
  split <;> exact ⟨rfl, rfl, rfl⟩

theorem keepsPlace_markSeen : KeepsPlace FlowRecord.markSeen := fun _ => ⟨rfl, rfl, rfl⟩

theorem keepsPlace_reported (g : Segment) (d : ClassDecision) : KeepsPlace (·.reported g d) :=
  (((keepsPlace_afterSyn g d).comp (keepsPlace_afterClose g)).comp (keepsPlace_afterPayload g)).comp keepsPlace_markSeen

/-! ### Changes of one record, one after another -/

theorem modRecord_id (s : State) (l : LaneId) (key : FlowKey) : (s.modRecord l key fun r => r) = s := by
  simp only [State.modRecord, ite_self, List.map_id']

theorem modRecord_modRecord (s : State) (l : LaneId) (key : FlowKey) {f : FlowRecord → FlowRecord} (hf : KeepsPlace f)
    (h : FlowRecord → FlowRecord) : (s.modRecord l key f).modRecord l key h = s.modRecord l key fun r => h (f r) := by
  simp only [State.modRecord, List.map_map]
  congr 1
  refine List.map_congr_left fun r _ => ?_
  obtain ⟨-, lane, place⟩ := hf r
  by_cases here : r.lane = l ∧ r.key = key
  · have there : (f r).lane = l ∧ (f r).key = key := by rw [lane, place]; exact here
    simp only [Function.comp_apply, if_pos here, if_pos there]
  · simp only [Function.comp_apply, if_neg here]

theorem stepSyn_of_found {s : State} {l : LaneId} {g : Segment} {r : FlowRecord} (h : s.findRecord l g.key = some r)
    (d : ClassDecision) : s.stepSyn l g d = s.modRecord l g.key (·.afterSyn g d) := by
  unfold State.stepSyn FlowRecord.afterSyn
  cases g.syn with
  | true => rw [h]; rfl
  | false => exact (modRecord_id s l g.key).symm

theorem stepClose_eq (s : State) (l : LaneId) (g : Segment) :
    s.stepClose l g = s.modRecord l g.key (·.afterClose g) := by
  have closes : (g.rst || (g.fin && decide (g.direction = .inbound))) = true ↔
      g.rst = true ∨ (g.direction = .inbound ∧ g.fin = true) := by
    rw [Bool.or_eq_true, Bool.and_eq_true, decide_eq_true_eq, and_comm (a := g.fin = true)]
  unfold State.stepClose FlowRecord.afterClose
  by_cases c : g.rst = true ∨ (g.direction = .inbound ∧ g.fin = true)
  · simp only [if_pos c, if_pos (closes.mpr c)]
  · simp only [if_neg c, if_neg (mt closes.mp c), modRecord_id]

/-- Where a record is there, or step 2 has tried to create one, step 4 creates none. -/
theorem stepPayload_of_no_creation {s : State} {l : LaneId} {g : Segment}
    (h : s.findRecord l g.key ≠ none ∨ (g.syn && !g.ack) = true) (d : ClassDecision) :
    s.stepPayload l g d = s.modRecord l g.key (·.afterPayload g) := by
  have creates : ¬ ((s.findRecord l g.key).isNone && !(g.syn && !g.ack)) = true := by
    rw [Bool.and_eq_true, Option.isNone_iff_eq_none, Bool.not_eq_true']
    exact fun c => h.elim (· c.1) fun o => by rw [o] at c; cases c.2
  unfold State.stepPayload FlowRecord.afterPayload
  by_cases c : g.direction = .inbound ∧ 0 < g.payloadLen
  · simp only [if_pos c, if_neg creates]
  · simp only [if_neg c, modRecord_id]

/-- A segment that reaches a record changes that record and no other (R59). -/
theorem reportSegment_of_found {s : State} {l : LaneId} {g : Segment} {r : FlowRecord}
    (h : s.findRecord l g.key = some r) :
    s.reportSegment l g = s.modRecord l g.key (·.reported g (s.lookup l g)) := by
  have place := (keepsPlace_afterSyn g (s.lookup l g)).comp (keepsPlace_afterClose g)
  have still : (s.modRecord l g.key fun r => (r.afterSyn g (s.lookup l g)).afterClose g).findRecord l g.key ≠ none := by
    rw [findRecord_modRecord s l g.key g.key fun r => (place r).2, h]
    exact Option.some_ne_none _
  unfold State.reportSegment
  dsimp only
  rw [stepSyn_of_found h, stepClose_eq, modRecord_modRecord s l g.key (keepsPlace_afterSyn g _),
    stepPayload_of_no_creation (.inl still), modRecord_modRecord s l g.key place, State.stepSeen,
    modRecord_modRecord s l g.key (place.comp (keepsPlace_afterPayload g))]
  rfl

/-! ### A segment of an unknown connection -/

/-- The record that a segment of an unknown connection makes in a slot: an opening SYN's starts in LEARNING and is closed
by the segment's FIN or RST, any other starts OPEN (R58). -/
def Segment.made (g : Segment) (slot : Nat) (l : LaneId) (d : ClassDecision) : FlowRecord :=
  if g.syn && !g.ack then
    (((newRecord slot l g.key (.learning g.handshake) d).afterClose g).afterPayload g).markSeen
  else ((newRecord slot l g.key .opened d).afterPayload g).markSeen

theorem made_place (g : Segment) (slot : Nat) (l : LaneId) (d : ClassDecision) :
    (g.made slot l d).slot = slot ∧ (g.made slot l d).lane = l ∧ (g.made slot l d).key = g.key := by
  unfold Segment.made
  split
  · exact (((keepsPlace_afterClose g).comp (keepsPlace_afterPayload g)).comp keepsPlace_markSeen) _
  · exact ((keepsPlace_afterPayload g).comp keepsPlace_markSeen) _

/-- A change of the record just created. -/
theorem map_insertRecord {f : FlowRecord → FlowRecord} {x : FlowRecord} (slot : (f x).slot = x.slot)
    {pool : List FlowRecord} (others : ∀ r ∈ pool, f r = r) : (insertRecord x pool).map f = insertRecord (f x) pool := by
  induction pool with
  | nil => rfl
  | cons r rest ih =>
    have here := others r List.mem_cons_self
    have behind := ih fun y hy => others y (List.mem_cons_of_mem r hy)
    have stands : rest.map f = rest := 
      (List.map_congr_left fun y hy => others y (List.mem_cons_of_mem r hy)).trans (List.map_id' rest)
    unfold insertRecord
    rw [slot]
    split
    · rw [List.map_cons, List.map_cons, here, stands]
    · rw [List.map_cons, here, behind]

/-- Whether a segment asks for a record of an unknown connection: an opening SYN does, and inbound payload (R58). -/
def Segment.Makes (g : Segment) : Prop := (g.syn && !g.ack) = true ∨ (g.direction = .inbound ∧ 0 < g.payloadLen)

/-- A segment of an unknown connection that asks for no record changes nothing (R58, R59). -/
theorem reportSegment_of_not_makes {s : State} {l : LaneId} {g : Segment} (absent : s.findRecord l g.key = none)
    (h : ¬ g.Makes) : s.reportSegment l g = s := by
  have noSyn : ∀ d : ClassDecision, s.stepSyn l g d = s := by
    intro d
    unfold State.stepSyn
    rw [absent]
    have := mt Or.inl h
    revert this
    cases g.syn <;> cases g.ack <;> simp
  have noPayload : ∀ d : ClassDecision, s.stepPayload l g d = s := fun d => if_neg (mt Or.inr h)
  unfold State.reportSegment
  dsimp only
  rw [noSyn, stepClose_eq, modRecord_of_none absent, noPayload]
  exact modRecord_of_none absent _

/-- One that does asks once, and what steps 3 to 5 do they do to the record just created (R58, R59; for an opening SYN
with payload: notes/assumptions/11.md). -/
theorem reportSegment_of_makes {s : State} {l : LaneId} {g : Segment} (absent : s.findRecord l g.key = none)
    (h : g.Makes) : ∃ (st : RecordState) (f : FlowRecord → FlowRecord), KeepsPlace f ∧
      (∀ (slot : Nat) (d : ClassDecision), f (newRecord slot l g.key st d) = g.made slot l d) ∧
      s.reportSegment l g = (s.createRecord l g.key st (s.lookup l g)).modRecord l g.key f := by
  unfold State.reportSegment Segment.made
  dsimp only
  by_cases opens : (g.syn && !g.ack) = true
  · have syn : ∀ d : ClassDecision, s.stepSyn l g d = s.createRecord l g.key (.learning g.handshake) d := by
      intro d
      obtain ⟨syn, ack⟩ := Bool.and_eq_true_iff.mp opens
      rw [Bool.not_eq_true'] at ack
      unfold State.stepSyn
      rw [syn, absent, ack]
      rfl
    rw [syn, stepClose_eq, stepPayload_of_no_creation (.inr opens), modRecord_modRecord _ _ _ (keepsPlace_afterClose g),
      State.stepSeen, modRecord_modRecord _ _ _ ((keepsPlace_afterClose g).comp (keepsPlace_afterPayload g))]
    exact ⟨_, _, ((keepsPlace_afterClose g).comp (keepsPlace_afterPayload g)).comp keepsPlace_markSeen,
      fun slot d => (if_pos opens).symm, rfl⟩
  · have payload : g.direction = .inbound ∧ 0 < g.payloadLen := h.resolve_left opens
    have syn : ∀ d : ClassDecision, s.stepSyn l g d = s := by
      intro d
      unfold State.stepSyn
      rw [absent]
      revert opens
      cases g.syn <;> cases g.ack <;> simp
    have counted : ∀ d : ClassDecision, s.stepPayload l g d =
        (s.createRecord l g.key .opened d).modRecord l g.key (·.afterPayload g) := by
      intro d
      unfold State.stepPayload FlowRecord.afterPayload
      simp only [if_pos payload, absent, Bool.eq_false_iff.mpr opens, Option.isNone_none, Bool.not_false, Bool.and_self,
        if_true]
    rw [syn, stepClose_eq, modRecord_of_none absent, counted, State.stepSeen,
      modRecord_modRecord _ _ _ (keepsPlace_afterPayload g)]
    exact ⟨_, _, (keepsPlace_afterPayload g).comp keepsPlace_markSeen, fun slot d => (if_neg opens).symm, rfl⟩

section

variable {s : State} {l : LaneId} {g : Segment} (absent : s.findRecord l g.key = none)

include absent

/-- An EXEMPT decision creates nothing (R45). -/
theorem reportSegment_of_exempt (exempt : (s.lookup l g).role = .exempt) : s.reportSegment l g = s := by
  by_cases h : g.Makes
  · obtain ⟨st, f, -, -, e⟩ := reportSegment_of_makes absent h
    rw [e, State.createRecord, if_pos exempt]
    exact modRecord_of_none absent f
  · exact reportSegment_of_not_makes absent h

/-- A refusal for quota or pool counts UNTRACKED once (R57). -/
theorem reportSegment_of_refused (h : g.Makes) (tracks : (s.lookup l g).role ≠ .exempt) (full : s.hasRoom l = false) :
    s.reportSegment l g = s.countLane l .untracked := by
  obtain ⟨st, f, -, -, e⟩ := reportSegment_of_makes absent h
  rw [e, State.createRecord, if_neg tracks, full, if_neg Bool.false_ne_true]
  exact modRecord_of_none (s := s.countLane l .untracked) absent f

/-- With room, a record is made in the lowest free slot (R57, R58). -/
theorem reportSegment_of_made (h : g.Makes) (tracks : (s.lookup l g).role ≠ .exempt) (room : s.hasRoom l = true) :
    s.reportSegment l g =
      { s with pool := insertRecord (g.made (lowestFree 0 s.pool) l (s.lookup l g)) s.pool } := by
  obtain ⟨st, f, place, made, e⟩ := reportSegment_of_makes absent h
  have fresh := fresh_of_findRecord_none absent
  rw [e, State.createRecord, if_neg tracks, if_pos room, State.modRecord, ← made]
  dsimp only
  rw [map_insertRecord (x := newRecord _ l g.key st _) (by rw [if_pos ⟨rfl, rfl⟩]; exact (place _).1)
    fun r hr => if_neg (fresh r hr), if_pos ⟨rfl, rfl⟩]

end

theorem hasRoom_iff (s : State) (l : LaneId) : s.hasRoom l = true ↔
    s.recordCount l < (s.lane l).params.quota ∧ s.pool.length < 1024 := by
  rw [State.hasRoom, Bool.and_eq_true, decide_eq_true_eq, decide_eq_true_eq]
  rfl

theorem hasRoom_eq_false {s : State} {l : LaneId}
    (full : (s.lane l).params.quota ≤ s.recordCount l ∨ 1024 ≤ s.pool.length) : s.hasRoom l = false := by
  rw [Bool.eq_false_iff, Ne, hasRoom_iff]
  omega

/-- What the flow table makes of a segment does not ask what the station side has sent. -/
theorem reportSegment_sendStation (s : State) (l : LaneId) (f : Frame) (g : Segment) :
    (s.sendStation l f).reportSegment l g = (s.reportSegment l g).sendStation l f := by
  cases h : s.findRecord l g.key with
  | some r =>
    rw [reportSegment_of_found h, reportSegment_of_found (s := s.sendStation l f) h]
    rfl
  | none =>
    by_cases makes : g.Makes
    · by_cases exempt : (s.lookup l g).role = .exempt
      · rw [reportSegment_of_exempt h exempt, reportSegment_of_exempt (s := s.sendStation l f) h exempt]
      · cases room : s.hasRoom l with
        | false =>
          rw [reportSegment_of_refused h makes exempt room,
            reportSegment_of_refused (s := s.sendStation l f) h makes exempt room]
          rfl
        | true =>
          rw [reportSegment_of_made h makes exempt room,
            reportSegment_of_made (s := s.sendStation l f) h makes exempt room]
          rfl
    · rw [reportSegment_of_not_makes h makes, reportSegment_of_not_makes (s := s.sendStation l f) h makes]

/-! ### Hand-ons that move nothing -/

/-- An event of a lane after which nothing of what is handed on has moved: the active set, C and B (R68, R91). -/
structure State.Still (s : State) (l : LaneId) (u : State) : Prop where
  set : u.activeSet l = s.activeSet l
  c : u.c l = s.c l
  budget : (u.lane l).budget = (s.lane l).budget

theorem State.Still.refl (s : State) (l : LaneId) : s.Still l s := ⟨rfl, rfl, rfl⟩

theorem State.Still.sendStation {s u : State} {l : LaneId} (h : s.Still l u) (f : Frame) : s.Still l (u.sendStation l f) :=
  ⟨h.set, h.c, h.budget⟩

theorem still_countLane (s : State) (l : LaneId) (c : LaneCounter) : s.Still l (s.countLane l c) := ⟨rfl, rfl, by simp⟩

theorem handOn_of_still {s u : State} {l : LaneId} (h : s.Still l u) : u.handOn l s = u := by
  have still : u.afterActiveSet l s = u := if_neg (by simp [h.set])
  have n : u.n l = s.n l := by simpa [State.activeSet, State.n] using congrArg List.length h.set
  have quiet : u.gateCause l s = false := by simp [State.gateCause, h.c, n, h.budget]
  rw [State.handOn, still, quiet, Bool.and_false, if_neg Bool.false_ne_true]

/-- What is inserted and filtered out again leaves no trace. -/
theorem filter_insertRecord_of_neg {p : FlowRecord → Bool} {x : FlowRecord} (h : p x = false) (pool : List FlowRecord) :
    (insertRecord x pool).filter p = pool.filter p := by
  induction pool with
  | nil => simp [insertRecord, h]
  | cons r rest ih =>
    unfold insertRecord
    split
    · rw [List.filter_cons_of_neg (by simp [h])]
    · rw [List.filter_cons, List.filter_cons, ih]

/-- A record made with nothing expected and no activity moves nothing that is handed on. -/
theorem still_insertRecord {s : State} {l : LaneId} {x : FlowRecord} (inactive : x.active = false)
    (expected : x.expected = 0) : s.Still l { s with pool := insertRecord x s.pool } := by
  refine ⟨?_, ?_, rfl⟩
  · simp only [State.activeSet, State.activeRecords, State.records, List.filter_filter]
    rw [filter_insertRecord_of_neg (by rw [inactive, Bool.false_and])]
  · have perm := (((insertRecord_perm x s.pool).filter fun r => r.lane = l).map (·.expected)).sum_eq
    rw [State.c, State.c, State.records, State.records]
    refine perm.trans ?_
    by_cases here : x.lane = l <;> simp [here, expected]

end Sys2Proof.Machine

/-! SUPPORT. An inbound segment of a tracking lane at its arrival, and what becomes of one of an unknown connection (R45,
R57 to R59, R62, R63, R68). -/

namespace Sys2Proof.Machine

/-! ### Records apart from their grants -/

section

variable {s t : State} (same : t.pool.map FlowRecord.apartGrant = s.pool.map FlowRecord.apartGrant)

include same

theorem findRecord_of_apartGrant (l : LaneId) (key : FlowKey) :
    (t.findRecord l key).map FlowRecord.apartGrant = (s.findRecord l key).map FlowRecord.apartGrant := by
  have find : ∀ u : State, (u.findRecord l key).map FlowRecord.apartGrant =
      (u.pool.map FlowRecord.apartGrant).find? fun r => r.lane = l ∧ r.key = key := by
    intro u
    rw [List.find?_map]
    rfl
  rw [find, find, same]

theorem recordCount_of_apartGrant (l : LaneId) : t.recordCount l = s.recordCount l := by
  refine recordCount_of_places ?_ l
  have places : ∀ u : State, u.places = (u.pool.map FlowRecord.apartGrant).map fun r => (r.slot, r.lane, r.key) := by
    intro u
    rw [List.map_map]
    rfl
  rw [places, places, same]

end

/-! ### The arrival -/

/-- An inbound segment of a tracking lane is forwarded, reported and handed on; the probe's byte count is all else that
changes (R13, R59, R68, R148). -/
theorem exec_inbound_tracked {s : State} {l : LaneId} {f : Frame} {g : Segment} (clocked : s.clocked = true)
    (tcp : s.inboundTcp l f g) (tracks : (s.lane l).mode.tracking = true) :
    ∃ t : State, exec (.inboundArrival l f) s = .next t ∧
      { t with probe := s.probe } = ((s.reportSegment l g).sendStation l f).handOn l s := by
  obtain ⟨v, hv⟩ : ∃ v : State, v = ((s.reportSegment l g).sendStation l f).handOn l s := ⟨_, rfl⟩
  have kept : v.probe = s.probe := by
    have report : (s.reportSegment l g).probe = s.probe := (congrArg State.probe (laneEvent_reportSegment s l g).rest :)
    have handed : v.probe = (s.reportSegment l g).probe := hv ▸ (congrArg State.probe (laneEvent_handOn _ l s).rest :)
    exact handed.trans report
  obtain ⟨p, hp⟩ := probeOnly_probeCount v l g.payloadLen
  refine ⟨v.probeCount l g.payloadLen, ?_, ?_⟩
  · rw [exec_inbound clocked, inboundFrame_tcp tcp, State.inboundSegment,
      if_pos (show ((s.sendStation l f).lane l).mode.tracking = true from tracks), reportSegment_sendStation, hv]
    rfl
  · rw [hp, ← kept]
    exact hv

/-- What an inbound segment of an unknown connection makes, field by field (R58, R62, R63). -/
theorem made_inbound {g : Segment} (inbound : g.direction = .inbound) (h : g.Makes) (slot : Nat) (l : LaneId)
    (d : ClassDecision) : g.made slot l d = {
      slot := slot
      lane := l
      key := g.key
      state := if (g.syn && !g.ack) = false then .opened
        else if g.rst = true ∨ g.fin = true then .closing
        else .learning (.remote g.scaleOption.isSome)
      scale := none
      cls := d.cls
      weight := d.weight
      grant := 0
      lastEdge := none
      expected := 0
      requestOpen := false
      epochBytes := min 4294967295 g.payloadLen
      dataLastEpoch := false
      idleTicks := 0
      seen := true } := by
  have handshake : g.handshake = .remote g.scaleOption.isSome := by rw [Segment.handshake, inbound]
  unfold Segment.made
  cases opening : g.syn && !g.ack with
  | false =>
    have payload := h.resolve_left (by rw [opening]; exact Bool.false_ne_true)
    simp [FlowRecord.afterPayload, payload, FlowRecord.countPayload, FlowRecord.markSeen, newRecord, Config.max32]
  | true =>
    have syn : g.syn = true := (Bool.and_eq_true_iff.mp opening).1
    by_cases close : g.rst = true ∨ g.fin = true <;> obtain empty | payload := Nat.eq_zero_or_pos g.payloadLen <;>
      simp [FlowRecord.afterClose, FlowRecord.afterPayload, FlowRecord.countPayload, FlowRecord.markSeen, newRecord,
        Config.max32, *]

/-! ### The obligation -/

section

variable {s t : State} {l : LaneId} {f : Frame} {g : Segment} (absent : s.findRecord l g.key = none)
  (arrived : { t with probe := s.probe } = ((s.reportSegment l g).sendStation l f).handOn l s)

include absent arrived

/-- A segment whose decision or whose kind asks for no record only leaves by the station side. -/
theorem inbound_of_uncreated (h : (s.lookup l g).role = .exempt ∨ ¬ g.Makes) :
    { t with probe := s.probe } = s.sendStation l f := by
  have none : s.reportSegment l g = s := h.elim (reportSegment_of_exempt absent) (reportSegment_of_not_makes absent)
  rw [arrived, none]
  exact handOn_of_still ((State.Still.refl s l).sendStation f)

theorem inbound_of_refused (makes : g.Makes) (tracked : (s.lookup l g).role ≠ .exempt) (full : s.hasRoom l = false) :
    { t with probe := s.probe } = (s.countLane l .untracked).sendStation l f := by
  rw [arrived, reportSegment_of_refused absent makes tracked full]
  exact handOn_of_still ((still_countLane s l .untracked).sendStation f)

/-- With room the record is made and handed on; with nothing to re-evaluate nothing but grants changes besides. -/
theorem inbound_of_made (tracks : (s.lane l).mode.tracking = true) (makes : g.Makes)
    (tracked : (s.lookup l g).role ≠ .exempt) (room : s.hasRoom l = true) {new : FlowRecord}
    (made : g.made (lowestFree 0 s.pool) l (s.lookup l g) = new) :
    (∃ (u : State) (released : List QueueEntry), { u with pool := s.pool } = s.sendStation l f ∧
      u.pool.Perm (new :: s.pool) ∧ (s.PoolCanonical → u.PoolCanonical) ∧
      s.HandedOn l u released { t with probe := s.probe } ∧ (s.lane l).queue = released ++ (t.lane l).queue) ∧
    (s.quiet l → (t.findRecord l g.key).map FlowRecord.apartGrant = some new.apartGrant ∧
      t.recordCount l = s.recordCount l + 1 ∧ (t.lane l).counters = (s.lane l).counters) := by
  obtain ⟨u, hu⟩ : ∃ u : State, u = { s.sendStation l f with pool := insertRecord new s.pool } := ⟨_, rfl⟩
  have report : (s.reportSegment l g).sendStation l f = u := by
    rw [hu, reportSegment_of_made absent makes tracked room, ← made]
    rfl
  have lane : u.lane l = s.lane l := by rw [hu]; rfl
  obtain ⟨slot, own, key⟩ := made ▸ made_place g (lowestFree 0 s.pool) l (s.lookup l g)
  rw [report] at arrived
  have queue : (t.lane l).queue = ((u.handOn l s).lane l).queue := by rw [← arrived]; rfl
  obtain ⟨released, handed, split⟩ := handedOn_handOn (u := u) tracks (by rw [lane]; exact .refl _)
  refine ⟨⟨u, released, by rw [hu]; rfl, ?_, fun canonical => ?_, arrived ▸ handed, by rw [queue]; exact split⟩,
    fun quiet => ?_⟩
  · rw [hu]
    exact insertRecord_perm new s.pool
  · rw [hu]
    refine poolSlotsFrom_insert new canonical slot ?_
    have := lowestFree_le s.pool 0
    have := ((hasRoom_iff s l).mp room).2
    simp only [Config.poolSlots]
    omega
  · have idle := handOn_of_idle (u := u) (l := l) (by rw [lane]; exact quiet.2) s
    have same : t.pool.map FlowRecord.apartGrant = u.pool.map FlowRecord.apartGrant := by
      rw [← apartGrant_afterActiveSet u l s, ← idle, ← arrived]
    refine ⟨?_, ?_, ?_⟩
    · rw [findRecord_of_apartGrant same, hu]
      rw [show State.findRecord { s.sendStation l f with pool := insertRecord new s.pool } l g.key = some new from
        (findRecord_insertRecord ⟨own, key⟩ absent g.key).trans (if_pos rfl)]
      rfl
    · rw [recordCount_of_apartGrant same, hu]
      exact recordCount_insert new l own s.pool
    · have counters : (t.lane l).counters = ((u.handOn l s).lane l).counters := by rw [← arrived]; rfl
      rw [counters, idle, counters_afterActiveSet, lane]

end

/-- Settles O11: the report makes one record, counts one refusal, or does nothing. -/
theorem unknownConnectionIsCreatedOrUntracked : Obligations.UnknownConnectionIsCreatedOrUntracked := by
  unfold Obligations.UnknownConnectionIsCreatedOrUntracked
  refine ⟨fun l f g s opening new clocked tcp tracks absent opens fields => ?_, hasRoom_iff⟩
  obtain ⟨t, answer, arrived⟩ := exec_inbound_tracked clocked tcp tracks
  have inbound := direction_of_segmentOf tcp.2.2
  have makes : g.Makes ↔ 0 < g.payloadLen ∨ opening = true := by
    rw [Segment.Makes, opens, or_comm]
    simp only [inbound, true_and]
  refine ⟨t, answer, fun tracked asks below free => ?_, fun tracked asks full => ?_, fun nothing => ?_⟩
  · have made : g.made (lowestFree 0 s.pool) l (s.lookup l g) = new := by
      rw [made_inbound inbound (makes.mpr asks), fields, opens]
    have := inbound_of_made absent arrived tracks (makes.mpr asks) tracked ((hasRoom_iff s l).mpr ⟨below, free⟩) made
    rwa [show new.apartGrant = new by rw [fields]; rfl] at this
  · have counted := inbound_of_refused absent arrived (makes.mpr asks) tracked (hasRoom_eq_false full)
    have lane : t.lane l = (s.countLane l .untracked).lane l := (congrArg (State.lane · l) counted :)
    exact ⟨counted, (congrArg State.pool counted :), by rw [lane, State.lane_countLane_same]; rfl⟩
  · have left := inbound_of_uncreated absent arrived (nothing.imp_right fun none asks => by
      obtain payload | opening := makes.mp asks
      · omega
      · rw [none.2] at opening
        cases opening)
    have lane : t.lane l = s.lane l := (congrArg (State.lane · l) left :)
    exact ⟨left, (congrArg State.pool left :), by rw [lane]⟩

end Sys2Proof.Machine

/-! SUPPORT. A segment that reaches a record, from either side, and the opening SYNs: the steps of R59, the gate's and the
rewriter's stage for a segment of the station that is no request start (R57 to R63, R68, R103, R104, R123). -/

namespace Sys2Proof.Machine

/-! ### What the rewriter does to the records -/

theorem findRecord_modRecord_other (s : State) {l l' : LaneId} {key key' : FlowKey} {f : FlowRecord → FlowRecord}
    (place : KeepsPlace f) (other : (l', key') ≠ (l, key)) :
    (s.modRecord l key f).findRecord l' key' = s.findRecord l' key' := by
  rw [findRecord_map (f := fun r => if r.lane = l ∧ r.key = key then f r else r) rfl
    (fun r => by split; exacts [(place r).2, ⟨rfl, rfl⟩])]
  refine (Option.map_congr fun r h => if_neg fun here => other ?_).trans Option.map_id'
  obtain ⟨lane, own⟩ := findRecord_key h
  rw [← lane, ← own, here.1, here.2]

/-- An event that gives one record an edge and leaves every other record found. -/
structure State.EdgeMoved (s : State) (l : LaneId) (key : FlowKey) (r : FlowRecord) (edge : Option SeqNum) (t : State) :
    Prop where
  found : t.findRecord l key = some { r with lastEdge := edge }
  others : ∀ (l' : LaneId) (k : FlowKey), (l', k) ≠ (l, key) → t.findRecord l' k = s.findRecord l' k

section

variable {s : State} {l : LaneId} {f : Frame} {g : Segment} {r : FlowRecord}

theorem edgeMoved_of_pool {t : State} {key : FlowKey} (pool : t.pool = s.pool) (found : s.findRecord l key = some r) :
    s.EdgeMoved l key r r.lastEdge t where
  found := (findRecord_congr pool l key).trans found
  others l' k _ := findRecord_congr pool l' k

theorem edgeMoved_setEdge {t : State} {key : FlowKey} {edge : SeqNum} (pool : t.pool = (s.setEdge l key edge).pool)
    (found : s.findRecord l key = some r) : s.EdgeMoved l key r (some edge) t where
  found := by
    rw [findRecord_congr pool, State.setEdge,
      findRecord_modRecord (f := fun r => { r with lastEdge := some edge }) s l key key fun _ => ⟨rfl, rfl⟩, found,
      Option.map_some, if_pos rfl]
  others l' k other := by
    rw [findRecord_congr pool]
    exact findRecord_modRecord_other s (fun _ => ⟨rfl, rfl, rfl⟩) other

/-- A segment that the rewriter passes by: without ACK, or with SYN or RST (R123). -/
theorem rewriteOutcome_pass {x : Option FlowRecord} (h : g.ack = false ∨ g.syn = true ∨ g.rst = true) :
    rewriteOutcome x g f = .pass := by
  refine if_pos ?_
  obtain e | e | e := h <;> simp [e]

theorem rewrite_pass (segment : segmentOf .outbound f = some g) (h : g.ack = false ∨ g.syn = true ∨ g.rst = true) :
    s.rewrite l f = (f, s) := by
  rw [State.rewrite, segment]
  dsimp only
  rw [rewriteOutcome_pass h]

/-- The rewriter moves the edge of its segment's record at most, and not where it passes the segment by or the record's
scale is unknown (R123, R124, R129). -/
theorem rewrite_edge (segment : segmentOf .outbound f = some g) (found : s.findRecord l g.key = some r) :
    ∃ edge : Option SeqNum, s.EdgeMoved l g.key r edge (s.rewrite l f).2 ∧
      (g.ack = false ∨ g.syn = true ∨ g.rst = true ∨ r.scale = none → edge = r.lastEdge) := by
  have known : (∃ r0, s.findRecord l g.key = some r0 ∧ r0.scale ≠ none) → r.scale ≠ none := by
    rintro ⟨r0, h, scale⟩
    rwa [← Option.some.inj (found.symm.trans h)] at scale
  have moves : rewriteOutcome (s.findRecord l g.key) g f ≠ .pass → r.scale ≠ none →
      ¬ (g.ack = false ∨ g.syn = true ∨ g.rst = true ∨ r.scale = none) := by
    intro acts scale still
    rw [← or_assoc, ← or_assoc] at still
    exact still.elim (fun p => acts (rewriteOutcome_pass (or_assoc.mp p))) scale
  rw [State.rewrite, segment]
  dsimp only
  cases h : rewriteOutcome (s.findRecord l g.key) g f with
  | pass => exact ⟨_, edgeMoved_of_pool rfl found, fun _ => rfl⟩
  | unscaled => exact ⟨_, edgeMoved_of_pool rfl found, fun _ => rfl⟩
  | keep edge =>
    have scale := known (rewriteOutcome_edge.1 edge h)
    exact ⟨_, edgeMoved_setEdge rfl found, fun still => absurd still (moves (by rw [h]; exact nofun) scale)⟩
  | lower window edge =>
    have scale := known (rewriteOutcome_edge.2 window edge h).1
    exact ⟨_, edgeMoved_setEdge rfl found, fun still => absurd still (moves (by rw [h]; exact nofun) scale)⟩

theorem passOut_of_monitor (mode : (s.lane l).mode = .monitor) : s.passOut l f = s.makeReady l f := by
  rw [State.passOut, mode]
  rfl

theorem passOut_of_enforcing (mode : (s.lane l).mode.enforcing = true) :
    s.passOut l f = (s.rewrite l f).2.makeReady l (s.rewrite l f).1 := if_pos mode

theorem passOut_pass (segment : segmentOf .outbound f = some g) (h : g.ack = false ∨ g.syn = true ∨ g.rst = true) :
    s.passOut l f = s.makeReady l f := by
  rw [State.passOut, rewrite_pass segment h]
  exact ite_self _

/-- A frame that passes out moves the edge of its segment's record at most, and none on a lane in MONITOR (R104). -/
theorem passOut_edge (segment : segmentOf .outbound f = some g) (found : s.findRecord l g.key = some r) :
    ∃ edge : Option SeqNum, s.EdgeMoved l g.key r edge (s.passOut l f) ∧
      ((s.lane l).mode = .monitor ∨ g.ack = false ∨ g.syn = true ∨ g.rst = true ∨ r.scale = none → edge = r.lastEdge) := by
  by_cases mode : (s.lane l).mode.enforcing = true
  · obtain ⟨edge, moved, still⟩ := rewrite_edge (l := l) segment found
    rw [passOut_of_enforcing mode]
    refine ⟨edge, ⟨moved.found, moved.others⟩, fun h => still (h.resolve_left fun monitor => ?_)⟩
    rw [monitor] at mode
    cases mode
  · exact ⟨_, edgeMoved_of_pool (by rw [State.passOut, if_neg mode]; rfl) found, fun _ => rfl⟩

/-! ### The gate's stage of a segment that is no request start -/

/-- What makes a segment of the station no request start (R65). -/
theorem requestStart_eq_false {d : ClassDecision} (h : g.payloadLen = 0 ∨ d.role ≠ .request ∨ g.rst = true ∨
    (∃ r : FlowRecord, s.findRecord l g.key = some r ∧ r.requestOpen = true) ∨ s.holds l g.key = true) :
    s.requestStart l g d = false := by
  unfold State.requestStart
  obtain e | e | e | ⟨r, found, e⟩ | e := h
  · simp [e]
  · simp [e]
  · simp [e]
  · simp [found, e]
  · simp [e]

theorem gateArrival_passes {d : ClassDecision} (h : ((s.lane l).mode.enforcing && s.holds l g.key) = false) :
    s.gateArrival l g f false d = s.passOut l f := by
  rw [State.gateArrival, h, if_neg Bool.false_ne_true, if_neg Bool.false_ne_true]

/-- Behind an entry of its connection a segment follows, where there is room (R98, R103). -/
theorem gateArrival_follows {start : Bool} {d : ClassDecision} (mode : (s.lane l).mode.enforcing = true)
    (holds : s.holds l g.key = true) (room : s.roomFor l f = true) :
    s.gateArrival l g f start d = s.modLane l fun x =>
      { x with
        queue := x.queue ++ [⟨.follower, g.key, f, 0⟩]
        counters := { x.counters with followed := bump x.counters.followed } } := by
  rw [State.gateArrival, mode, holds, Bool.and_self, if_pos rfl, State.hold, if_pos room, State.appendEntry,
    State.countLane, modLane_modLane]
  rfl

theorem exec_outbound_tcp (clocked : s.clocked = true) (tcp : s.outboundTcp f g) :
    exec (.outboundArrival l f) s = .next (s.outboundSegment l g f) := by
  rw [exec_outbound clocked, outboundFrame_tcp tcp]

theorem outboundSegment_tracked (tracks : (s.lane l).mode.tracking = true)
    (noStart : (s.reportSegment l g).requestStart l g (s.lookup l g) = false) :
    s.outboundSegment l g f = ((s.reportSegment l g).handOn l s).gateArrival l g f false (s.lookup l g) := by
  rw [State.outboundSegment, if_pos tracks]
  dsimp only
  rw [noStart]

theorem holds_reportSegment (key : FlowKey) : (s.reportSegment l g).holds l key = s.holds l key := by
  rw [State.holds, (accounted_reportSegment s l g).queue, State.holds]

/-- Where the report hands nothing on, a segment that is no request start and waits behind no entry passes. -/
theorem outboundSegment_of_still (tracks : (s.lane l).mode.tracking = true)
    (noStart : (s.reportSegment l g).requestStart l g (s.lookup l g) = false) (free : s.holds l g.key = false)
    (still : s.Still l (s.reportSegment l g)) :
    s.outboundSegment l g f = (s.reportSegment l g).passOut l f := by
  rw [outboundSegment_tracked tracks noStart, handOn_of_still still]
  exact gateArrival_passes (by rw [holds_reportSegment, free, Bool.and_false])

end

/-! ### Opening SYNs of an unknown connection -/

section

variable {s : State} {l : LaneId} {f : Frame} {g : Segment} {d : Direction}

theorem arrives_tcp (arrives : s.arrives d l f g) : segmentOf d f = some g := by
  cases d with
  | inbound => exact arrives.2.2
  | outbound => exact arrives.1.2.2

theorem makes_of_opening (syn : g.syn = true) (ack : g.ack = false) : g.Makes := .inl (by rw [syn, ack]; rfl)

/-- A SYN without more makes a LEARNING record that keeps the opener and its option (R58). -/
theorem made_opening (syn : g.syn = true) (ack : g.ack = false) (rst : g.rst = false) (payload : g.payloadLen = 0)
    (fin : g.direction = .inbound → g.fin = false) (slot : Nat) (c : ClassDecision) :
    g.made slot l c = newRecord slot l g.key (.learning g.handshake) c := by
  have opens : (g.syn && !g.ack) = true := by rw [syn, ack]; rfl
  have noClose : ¬ (g.rst = true ∨ (g.direction = .inbound ∧ g.fin = true)) := by
    rw [rst]
    rintro (h | ⟨inbound, h⟩)
    · cases h
    · rw [fin inbound] at h
      cases h
  rw [Segment.made, if_pos opens, FlowRecord.afterClose, if_neg noClose, FlowRecord.afterPayload,
    if_neg fun c => by omega]
  rfl

/-- Where a report hands nothing on and the rewriter passes the segment by, the records and the lane's counters are left
as the report leaves them, from whichever side the segment comes. -/
theorem arrival_of_still (clocked : s.clocked = true) (arrives : s.arrives d l f g)
    (tracks : (s.lane l).mode.tracking = true) (passes : g.ack = false ∨ g.syn = true ∨ g.rst = true)
    (noStart : d = .outbound → (s.reportSegment l g).requestStart l g (s.lookup l g) = false)
    (still : s.Still l (s.reportSegment l g)) : ∃ t : State, exec (arrival d l f) s = .next t ∧
      t.pool = (s.reportSegment l g).pool ∧ (t.lane l).queue = (s.lane l).queue ∧
      (t.lane l).counters = ((s.reportSegment l g).lane l).counters := by
  have queue := (accounted_reportSegment s l g).queue
  cases d with
  | inbound =>
    obtain ⟨t, answer, arrived⟩ := exec_inbound_tracked clocked arrives tracks
    rw [handOn_of_still (still.sendStation f)] at arrived
    have lane : t.lane l = (s.reportSegment l g).lane l := (congrArg (State.lane · l) arrived :)
    exact ⟨t, answer, (congrArg State.pool arrived :), by rw [lane, queue], by rw [lane]⟩
  | outbound =>
    have passed := outboundSegment_of_still (f := f) tracks (noStart rfl) arrives.2 still
    rw [passOut_pass (arrives_tcp arrives) passes] at passed
    refine ⟨_, exec_outbound_tcp clocked arrives.1, ?_, ?_, ?_⟩
    · rw [passed]
      rfl
    · rw [passed, (makeReady_queue _ l f).1, queue]
    · rw [passed, lane_makeReady_same, LaneState.addReady, startReady_counters]

/-- A segment of the station without payload, without a REQUEST decision or with RST is no request start (R65). -/
theorem requestStart_of_outbound (h : d = .outbound → g.payloadLen = 0 ∨ (s.lookup l g).role ≠ .request ∨ g.rst = true)
    (outbound : d = .outbound) : (s.reportSegment l g).requestStart l g (s.lookup l g) = false :=
  requestStart_eq_false <| (h outbound).imp_right fun h => h.imp_right .inl

/-- Where there is room, an opening SYN without more leaves its LEARNING record to be found (R57, R58). -/
theorem opening_makes_record (clocked : s.clocked = true) (arrives : s.arrives d l f g)
    (tracks : (s.lane l).mode.tracking = true) (syn : g.syn = true) (ack : g.ack = false) (rst : g.rst = false)
    (payload : g.payloadLen = 0) (fin : d = .inbound → g.fin = false) (absent : s.findRecord l g.key = none)
    (tracked : (s.lookup l g).role ≠ .exempt) (room : s.hasRoom l = true) :
    ∃ t : State, exec (arrival d l f) s = .next t ∧ (t.lane l).queue = (s.lane l).queue ∧ t.findRecord l g.key =
      some (newRecord (lowestFree 0 s.pool) l g.key (.learning g.handshake) (s.lookup l g)) := by
  have direction := direction_of_segmentOf (arrives_tcp arrives)
  have report := reportSegment_of_made absent (makes_of_opening syn ack) tracked room
  rw [made_opening syn ack rst payload fun inbound => fin (direction.symm.trans inbound)] at report
  obtain ⟨t, answer, pool, queue, -⟩ := arrival_of_still clocked arrives tracks (.inl ack)
    (requestStart_of_outbound fun _ => .inl payload) (report ▸ still_insertRecord rfl rfl)
  refine ⟨t, answer, queue, ?_⟩
  rw [findRecord_congr pool, report]
  exact (findRecord_insertRecord ⟨rfl, rfl⟩ absent g.key).trans (if_pos rfl)

/-- An opening SYN that is EXEMPT makes nothing and counts nothing; refused, it counts UNTRACKED once, with payload too
(R45, R57; notes/assumptions/11.md). -/
theorem opening_makes_none (clocked : s.clocked = true) (arrives : s.arrives d l f g)
    (tracks : (s.lane l).mode.tracking = true) (syn : g.syn = true) (ack : g.ack = false)
    (absent : s.findRecord l g.key = none)
    (noStart : d = .outbound → g.payloadLen = 0 ∨ (s.lookup l g).role ≠ .request ∨ g.rst = true) :
    ∃ t : State, exec (arrival d l f) s = .next t ∧
      ((s.lookup l g).role = .exempt → t.pool = s.pool ∧ (t.lane l).counters = (s.lane l).counters) ∧
      ((s.lookup l g).role ≠ .exempt → s.hasRoom l = false → t.pool = s.pool ∧
        (t.lane l).counters = { (s.lane l).counters with untracked := bump (s.lane l).counters.untracked }) := by
  have arrived := arrival_of_still clocked arrives tracks (.inl ack) (requestStart_of_outbound noStart)
  by_cases exempt : (s.lookup l g).role = .exempt
  · rw [reportSegment_of_exempt absent exempt] at arrived
    obtain ⟨t, answer, pool, -, counters⟩ := arrived (.refl s l)
    exact ⟨t, answer, fun _ => ⟨pool, counters⟩, fun tracked => absurd exempt tracked⟩
  · cases room : s.hasRoom l with
    | false =>
      rw [reportSegment_of_refused absent (makes_of_opening syn ack) exempt room] at arrived
      obtain ⟨t, answer, pool, -, counters⟩ := arrived (still_countLane s l .untracked)
      rw [State.lane_countLane_same] at counters
      exact ⟨t, answer, fun h => absurd h exempt, fun _ _ => ⟨pool, counters⟩⟩
    | true =>
      cases d <;> exact ⟨_, rfl, fun h => absurd h exempt, fun _ h => nomatch h⟩

end

/-! ### A FIN of the station -/

/-- A FIN of the station closes nothing: its record is seen, and its edge moves at most (R59, R62, R129). -/
theorem outbound_fin {s : State} {l : LaneId} {f : Frame} {g : Segment} {r : FlowRecord} (clocked : s.clocked = true)
    (arrives : s.arrives .outbound l f g) (tracks : (s.lane l).mode.tracking = true) (syn : g.syn = false)
    (rst : g.rst = false) (payload : g.payloadLen = 0) (found : s.findRecord l g.key = some r) :
    ∃ (t : State) (edge : Option SeqNum), exec (.outboundArrival l f) s = .next t ∧
      t.findRecord l g.key = some { r with seen := true, lastEdge := edge } ∧
      ((s.lane l).mode = .monitor → edge = r.lastEdge) := by
  have segment := arrives_tcp arrives
  have report : s.reportSegment l g = s.modRecord l g.key FlowRecord.markSeen :=
    reportSegment_plain (direction_of_segmentOf segment) syn rst
  have still : s.Still l (s.reportSegment l g) := by
    rw [report]
    exact ⟨activeSet_markSeen s l g.key, c_markSeen s l g.key, rfl⟩
  have seen : (s.reportSegment l g).findRecord l g.key = some r.markSeen := by
    rw [report, findRecord_markSeen, found, Option.map_some, if_pos rfl]
  obtain ⟨edge, moved, stands⟩ := passOut_edge segment seen
  have passed := outboundSegment_of_still (f := f) tracks (requestStart_eq_false (.inl payload)) arrives.2 still
  refine ⟨_, edge, exec_outbound_tcp clocked arrives.1, ?_, fun monitor => stands (.inl ?_)⟩
  · rw [passed]
    exact moved.found
  · rw [(accounted_reportSegment s l g).mode]
    exact monitor

/-! ### A segment that reaches a record -/

/-- The records once an event has left one as `r` but for its grant and its edge, which stands under a condition, and every
other as it was but for its grant. -/
def State.SettledRecords (s : State) (l : LaneId) (key : FlowKey) (r : FlowRecord) (still : Prop) (edge : Option SeqNum)
    (t : State) : Prop :=
  (t.findRecord l key).map FlowRecord.apartGrant = some { r with grant := 0, lastEdge := edge } ∧
    (still → edge = r.lastEdge) ∧
    ∀ (l' : LaneId) (k : FlowKey), (l', k) ≠ (l, key) →
      (t.findRecord l' k).map FlowRecord.apartGrant = (s.findRecord l' k).map FlowRecord.apartGrant

/-- The arrival of a segment of one side that reaches a record and is no request start: the flow table's own work leaves
`u`, the hand-on `v`, and the stages behind it `t` (R59, R68, R103, R104). On a quiet lane the records are those of the
flow table but for their grants and the edge of the segment's. -/
structure State.ReachesRecord (s : State) (d : Direction) (l : LaneId) (f : Frame) (g : Segment) (r : FlowRecord)
    (t u v : State) (released : List QueueEntry) (edge : Option SeqNum) : Prop where
  answer : exec (arrival d l f) s = .next t
  work : { u with stationSent := s.stationSent } = s.modRecord l g.key (·.reported g (s.lookup l g))
  handed : s.HandedOn l u released v
  queue : (s.lane l).queue = released ++ (v.lane l).queue
  inbound : d = .inbound → u.stationSent = (s.sendStation l f).stationSent ∧ { t with probe := s.probe } = v
  outbound : d = .outbound → u.stationSent = s.stationSent ∧
    ((s.lane l).mode = .monitor → t = v.makeReady l f) ∧
    ((s.lane l).mode ≠ .monitor → v.holds l g.key = false → t = (v.rewrite l f).2.makeReady l (v.rewrite l f).1) ∧
    ((s.lane l).mode ≠ .monitor → v.holds l g.key = true → v.roomFor l f = true →
      t = v.modLane l fun x =>
        { x with
          queue := x.queue ++ [⟨.follower, g.key, f, 0⟩]
          counters := { x.counters with followed := bump x.counters.followed } })
  quiet : s.quiet l → (d = .outbound → s.holds l g.key = false) →
    s.SettledRecords l g.key (r.reported g (s.lookup l g)) (d = .inbound ∨ (s.lane l).mode = .monitor ∨ g.ack = false ∨
      g.syn = true ∨ g.rst = true ∨ (r.reported g (s.lookup l g)).scale = none) edge t

section

variable {s : State} {l : LaneId} {f : Frame} {g : Segment} {r : FlowRecord}

/-- The report of a segment of the station without SYN leaves `requestOpen` of its record as it is (R59, R65). -/
theorem requestOpen_reported (outbound : g.direction = .outbound) (syn : g.syn = false) (d : ClassDecision) :
    (r.reported g d).requestOpen = r.requestOpen := by
  have payload : ∀ x : FlowRecord, x.afterPayload g = x := fun x => if_neg fun c => by rw [outbound] at c; cases c.1
  rw [FlowRecord.reported, payload, FlowRecord.afterSyn, syn, if_neg Bool.false_ne_true]
  unfold FlowRecord.afterClose
  split <;> rfl

theorem enforcing_of_tracking {m : Mode} (tracks : m.tracking = true) (ne : m ≠ .monitor) : m.enforcing = true := by
  revert tracks ne
  cases m <;> simp [Mode.tracking, Mode.enforcing]

/-- What a report on a record and its hand-on leave of the records of a quiet lane, apart from grants. -/
theorem records_of_quiet_handOn {u : State} {F : FlowRecord → FlowRecord} {key : FlowKey} (place : KeepsPlace F)
    (pool : u.pool = (s.modRecord l key F).pool) (lane : u.lane l = s.lane l) (quiet : s.quiet l)
    (found : s.findRecord l key = some r) :
    ((u.handOn l s).lane l).queue = (s.lane l).queue ∧
      s.SettledRecords l key (F r) True (F r).lastEdge (u.handOn l s) := by
  have same := apartGrant_afterActiveSet u l s
  rw [handOn_of_idle (by rw [lane]; exact quiet.2)]
  refine ⟨by rw [(accounted_afterActiveSet u l s).queue, lane], ?_, fun _ => rfl, fun l' k other => ?_⟩
  · rw [findRecord_of_apartGrant same, findRecord_congr pool, findRecord_modRecord s l key key fun r => (place r).2,
      found, Option.map_some, if_pos rfl, Option.map_some]
    rfl
  · rw [findRecord_of_apartGrant same, findRecord_congr pool, findRecord_modRecord_other s place other]

/-- A frame that passes out behind them moves no more than the edge of its segment's record. -/
theorem settledRecords_passOut {v : State} (segment : segmentOf .outbound f = some g)
    (settled : s.SettledRecords l g.key r True r.lastEdge v) : ∃ edge : Option SeqNum,
      s.SettledRecords l g.key r
        ((v.lane l).mode = .monitor ∨ g.ack = false ∨ g.syn = true ∨ g.rst = true ∨ r.scale = none) edge (v.passOut l f) := by
  obtain ⟨own, -, others⟩ := settled
  obtain ⟨r', found, apart⟩ := Option.map_eq_some_iff.mp own
  obtain ⟨edge, moved, still⟩ := passOut_edge segment found
  have scale : r'.scale = r.scale := (congrArg FlowRecord.scale apart :)
  have last : r'.lastEdge = r.lastEdge := (congrArg FlowRecord.lastEdge apart :)
  rw [scale, last] at still
  refine ⟨edge, ?_, still, fun l' k other => by rw [moved.others l' k other, others l' k other]⟩
  rw [moved.found]
  exact congrArg some (congrArg (fun x : FlowRecord => { x with lastEdge := edge }) apart :)

theorem reachesRecord_inbound (clocked : s.clocked = true) (tcp : s.inboundTcp l f g)
    (tracks : (s.lane l).mode.tracking = true) (found : s.findRecord l g.key = some r) :
    ∃ (t u v : State) (released : List QueueEntry) (edge : Option SeqNum),
      s.ReachesRecord .inbound l f g r t u v released edge := by
  obtain ⟨t, answer, arrived⟩ := exec_inbound_tracked clocked tcp tracks
  rw [reportSegment_of_found found] at arrived
  obtain ⟨u, hu⟩ : ∃ u : State, u = (s.modRecord l g.key (·.reported g (s.lookup l g))).sendStation l f := ⟨_, rfl⟩
  have lane : u.lane l = s.lane l := by rw [hu]; rfl
  rw [← hu] at arrived
  obtain ⟨released, handed, queue⟩ := handedOn_handOn (u := u) tracks (by rw [lane]; exact .refl _)
  refine ⟨t, u, u.handOn l s, released, (r.reported g (s.lookup l g)).lastEdge, answer, by rw [hu]; rfl, handed, queue,
    fun _ => ⟨by rw [hu]; rfl, arrived⟩, nofun, fun quiet _ => ?_⟩
  have pool : t.pool = (u.handOn l s).pool := (congrArg State.pool arrived :)
  obtain ⟨-, own, -, others⟩ :=
    records_of_quiet_handOn (keepsPlace_reported g (s.lookup l g)) (by rw [hu]; rfl) lane quiet found
  exact ⟨by rw [findRecord_congr pool, own], fun _ => rfl,
    fun l' k other => by rw [findRecord_congr pool, others l' k other]⟩

theorem reachesRecord_outbound (clocked : s.clocked = true) (tcp : s.outboundTcp f g)
    (tracks : (s.lane l).mode.tracking = true) (found : s.findRecord l g.key = some r)
    (noStart : g.payloadLen = 0 ∨ (s.lookup l g).role ≠ .request ∨ g.rst = true ∨ (g.syn = false ∧ r.requestOpen = true) ∨
      s.holds l g.key = true) :
    ∃ (t u v : State) (released : List QueueEntry) (edge : Option SeqNum),
      s.ReachesRecord .outbound l f g r t u v released edge := by
  obtain ⟨u, hu⟩ : ∃ u : State, u = s.modRecord l g.key (·.reported g (s.lookup l g)) := ⟨_, rfl⟩
  have lane : u.lane l = s.lane l := by rw [hu]; rfl
  have report : s.reportSegment l g = u := by rw [hu, reportSegment_of_found found]
  have seen : u.findRecord l g.key = some (r.reported g (s.lookup l g)) := by
    rw [hu, findRecord_modRecord s l g.key g.key fun x => (keepsPlace_reported g _ x).2, found, Option.map_some,
      if_pos rfl]
  have start : u.requestStart l g (s.lookup l g) = false := by
    refine requestStart_eq_false (noStart.imp_right fun h => h.imp_right fun h => h.imp_right fun h => h.imp ?_ ?_)
    · rintro ⟨syn, isOpen⟩
      exact ⟨_, seen, (requestOpen_reported (direction_of_segmentOf tcp.2.2) syn _).trans isOpen⟩
    · rw [State.holds, State.holds, lane]
      exact id
  obtain ⟨released, handed, queue⟩ := handedOn_handOn (u := u) tracks (by rw [lane]; exact .refl _)
  obtain ⟨v, hv⟩ : ∃ v : State, v = u.handOn l s := ⟨_, rfl⟩
  have mode : (v.lane l).mode = (s.lane l).mode :=
    hv ▸ (turn_handOn (C := True) (D := False) (lane ▸ .refl _) False.elim).mode
  have stages : s.outboundSegment l g f = v.gateArrival l g f false (s.lookup l g) := by
    rw [outboundSegment_tracked tracks (report ▸ start), report, hv]
  have passes : ((v.lane l).mode.enforcing && v.holds l g.key) = false → s.outboundSegment l g f = v.passOut l f :=
    fun h => stages.trans (gateArrival_passes h)
  obtain ⟨edge, settled⟩ : ∃ edge : Option SeqNum, s.quiet l → s.holds l g.key = false →
      s.SettledRecords l g.key (r.reported g (s.lookup l g)) ((v.lane l).mode = .monitor ∨ g.ack = false ∨ g.syn = true ∨
        g.rst = true ∨ (r.reported g (s.lookup l g)).scale = none) edge (s.outboundSegment l g f) := by
    by_cases h : s.quiet l ∧ s.holds l g.key = false
    · obtain ⟨held, handed⟩ :=
        records_of_quiet_handOn (keepsPlace_reported g (s.lookup l g)) (by rw [hu]) lane h.1 found
      rw [← hv] at held handed
      have free : v.holds l g.key = false := by rw [State.holds, held]; exact h.2
      rw [passes (by rw [free, Bool.and_false])]
      exact (settledRecords_passOut tcp.2.2 handed).imp fun _ settled _ _ => settled
    · exact ⟨none, fun q free => absurd ⟨q, free⟩ h⟩
  refine ⟨s.outboundSegment l g f, u, v, released, edge, exec_outbound_tcp clocked tcp, by rw [hu]; rfl, hv ▸ handed,
    hv ▸ queue, nofun, fun _ => ⟨by rw [hu]; rfl, fun monitor => ?_, fun ne free => ?_, fun ne holds room => ?_⟩,
    fun q free => ?_⟩
  · rw [passes (by rw [mode, monitor]; rfl), passOut_of_monitor (mode.trans monitor)]
  · rw [passes (by rw [free, Bool.and_false]), passOut_of_enforcing (mode ▸ enforcing_of_tracking tracks ne)]
  · rw [stages, gateArrival_follows (mode ▸ enforcing_of_tracking tracks ne) holds room]
  · obtain ⟨own, still, others⟩ := settled q (free rfl)
    exact ⟨own, fun h => still (mode.symm ▸ h.resolve_left nofun), others⟩

/-! ### The steps on the record, spelled by the segment's side -/

theorem afterSyn_of_plain (syn : g.syn = false) (c : ClassDecision) : r.afterSyn g c = r :=
  if_neg (by rw [syn]; exact Bool.false_ne_true)

section

variable (syn : g.syn = true) (c : ClassDecision)

include syn

/-- A SYN of the opener's side replaces the option (R60). -/
theorem afterSyn_of_station_again {o : Option Nat} (outbound : g.direction = .outbound)
    (state : r.state = .learning (.station o)) :
    r.afterSyn g c = { r with state := .learning (.station g.scaleOption) } := by
  simp only [FlowRecord.afterSyn, syn, if_true, FlowRecord.onSyn, state, outbound]

theorem afterSyn_of_remote_again {o : Bool} (inbound : g.direction = .inbound) (state : r.state = .learning (.remote o)) :
    r.afterSyn g c = { r with state := .learning (.remote g.scaleOption.isSome) } := by
  simp only [FlowRecord.afterSyn, syn, if_true, FlowRecord.onSyn, state, inbound]

/-- A SYN of the other side opens the record with the scale agreed (R60). -/
theorem afterSyn_of_remote_answer {o : Option Nat} (inbound : g.direction = .inbound)
    (state : r.state = .learning (.station o)) :
    r.afterSyn g c = { r with state := .opened, scale := some (if g.scaleOption.isSome then o.getD 0 else 0) } := by
  simp only [FlowRecord.afterSyn, syn, if_true, FlowRecord.onSyn, state, inbound, agreedScale]

theorem afterSyn_of_station_answer {o : Bool} (outbound : g.direction = .outbound)
    (state : r.state = .learning (.remote o)) :
    r.afterSyn g c = { r with state := .opened, scale := some (if o then g.scaleOption.getD 0 else 0) } := by
  simp only [FlowRecord.afterSyn, syn, if_true, FlowRecord.onSyn, state, outbound, agreedScale]

/-- On a record that has opened, a SYN with ACK changes nothing and one without resets the record for reuse (R61). -/
theorem afterSyn_of_opened (state : r.state = .opened ∨ r.state = .closing) :
    r.afterSyn g c = if g.ack then r else r.reuse g c := by
  obtain e | e := state <;> simp only [FlowRecord.afterSyn, syn, if_true, FlowRecord.onSyn, e]

end

end

/-- Settles O12: the opening SYNs make a record or none, and a segment that reaches a record acts on it by steps 2 to 5 of
the report, whose hand-on and later stages move nothing of it but its grant and its edge. -/
theorem handshakeLearnsTheScale : Obligations.HandshakeLearnsTheScale := by
  unfold Obligations.HandshakeLearnsTheScale
  refine ⟨?_, ?_, ?_, ?_⟩
  · intro d l f g s clocked arrives tracks syn ack rst payload fin absent tracked below free
    obtain ⟨t, answer, queue, found⟩ := opening_makes_record clocked arrives tracks syn ack rst payload fin absent tracked
      ((hasRoom_iff s l).mpr ⟨below, free⟩)
    obtain rfl := direction_of_segmentOf (arrives_tcp arrives)
    exact ⟨t, _, answer, found, rfl, rfl, rfl, rfl, rfl, rfl, rfl, rfl, rfl, queue⟩
  · intro d l f g s clocked arrives tracks syn ack absent noStart
    obtain ⟨t, answer, exempt, refused⟩ := opening_makes_none clocked arrives tracks syn ack absent noStart
    exact ⟨t, answer, exempt, fun tracked full => refused tracked (hasRoom_eq_false full)⟩
  · intro d l f g s r clocked side tracks found noStart
    obtain ⟨direction, t, u, v, released, edge, reach⟩ : g.direction = d ∧
        ∃ (t u v : State) (released : List QueueEntry) (edge : Option SeqNum),
          s.ReachesRecord d l f g r t u v released edge := by
      obtain ⟨rfl, tcp⟩ | ⟨rfl, tcp⟩ := side
      · exact ⟨direction_of_segmentOf tcp.2.2, reachesRecord_inbound clocked tcp tracks found⟩
      · exact ⟨direction_of_segmentOf tcp.2.2, reachesRecord_outbound clocked tcp tracks found (noStart rfl)⟩
    subst direction
    obtain ⟨r2, hr2⟩ : ∃ r2 : FlowRecord, r2 = r.afterSyn g (s.lookup l g) := ⟨_, rfl⟩
    refine ⟨t, u, v, (·.reported g (s.lookup l g)), released, r2, r2.afterClose g, (r2.afterClose g).afterPayload g, edge,
      reach.answer, by rw [hr2]; rfl, reach.work, reach.handed, reach.queue, reach.inbound, reach.outbound,
      by rw [hr2]; exact reach.quiet, ?_, ?_, ?_, ?_, ?_, ?_, ?_, rfl, rfl⟩
    all_goals rw [hr2]
    · exact fun syn => afterSyn_of_plain syn _
    · exact fun o syn outbound state => afterSyn_of_station_again syn _ outbound state
    · exact fun o syn inbound state => afterSyn_of_remote_again syn _ inbound state
    · exact fun o syn inbound state => afterSyn_of_remote_answer syn _ inbound state
    · exact fun o syn outbound state => afterSyn_of_station_answer syn _ outbound state
    · exact fun syn state ack => (afterSyn_of_opened syn _ state).trans (by rw [ack]; rfl)
    · exact fun syn state ack => (afterSyn_of_opened syn _ state).trans (by rw [ack]; rfl)
  · intro l f g s r clocked arrives tracks syn rst _ payload found
    exact outbound_fin clocked arrives tracks syn rst payload found

end Sys2Proof.Machine

/-! SUPPORT. What the events of one lane's ports leave of the other lanes and of the chip's settings. -/

namespace Sys2Proof.Machine

/-! ### Events of one lane's ports -/

/-- What an event of a lane's ports may change: that lane, its records, the probe, the control engine and the frames
sent, and the event latch, which it only sets. -/
structure State.PortEvent (l : LaneId) (s t : State) : Prop where
  spares : ∀ l' : LaneId, l' ≠ l → s.Spares l' t
  latch : ∀ e : Event, s.latched e = true → t.latched e = true
  rest : { t with
    lanes := s.lanes, pool := s.pool, latch := s.latch, probe := s.probe, control := s.control,
    stationSent := s.stationSent, fabricSent := s.fabricSent } = s

theorem State.PortEvent.trans {l : LaneId} {s t u : State} (h : s.PortEvent l t) (h' : t.PortEvent l u) :
    s.PortEvent l u where
  spares l' ne := (h.spares l' ne).trans (h'.spares l' ne)
  latch e on := h'.latch e (h.latch e on)
  rest := (congrArg (fun x : State => { x with
    lanes := s.lanes, pool := s.pool, latch := s.latch, probe := s.probe, control := s.control,
    stationSent := s.stationSent, fabricSent := s.fabricSent }) h'.rest :).trans h.rest

theorem State.LaneEvent.portEvent {l : LaneId} {s t : State} (h : s.LaneEvent l t) : s.PortEvent l t where
  spares _ ne := h.spares ne
  latch := h.latch
  rest := (congrArg (fun x : State => { x with
    probe := s.probe, control := s.control, stationSent := s.stationSent, fabricSent := s.fabricSent }) h.rest :)

theorem State.PortEvent.refl (l : LaneId) (s : State) : s.PortEvent l s := (State.LaneEvent.refl l s).portEvent

section

variable (s : State) (l : LaneId)

/-- A change of the probe, the control engine and the frames sent. -/
theorem portEvent_outside (p : Probe) (c : Control) (x y : Vector (List Frame) 8) :
    s.PortEvent l { s with probe := p, control := c, stationSent := x, fabricSent := y } :=
  ⟨fun _ _ => ⟨rfl, rfl⟩, fun _ => id, rfl⟩

theorem portEvent_sendStation (f : Frame) : s.PortEvent l (s.sendStation l f) := portEvent_outside s l ..

theorem takeFrame_control (s : State) : ∃ c : Control, s.takeFrame = { s with control := c } := by
  unfold State.takeFrame
  split
  · exact ⟨_, rfl⟩
  · exact ⟨_, rfl⟩

/-- The control engine takes a frame of the lane for itself, or drops it with CTLDROP latched (R155, R156). -/
theorem receiveControl_latch (f : Frame) : ∃ c : Control, s.receiveControl l f = { s with control := c } ∨
    s.receiveControl l f = State.latchEvent { s with control := c } .ctlDrop := by
  unfold State.receiveControl
  split
  · exact ⟨_, .inr rfl⟩
  · split
    · obtain ⟨c, taken⟩ := takeFrame_control { s with
        control := { s.control with fifo := s.control.fifo ++ [(l, f)], accepted := bump s.control.accepted } }
      exact ⟨c, .inl taken⟩
    · exact ⟨_, .inr rfl⟩

theorem portEvent_receiveControl (f : Frame) : s.PortEvent l (s.receiveControl l f) := by
  obtain ⟨c, taken | dropped⟩ := receiveControl_latch s l f
  · exact taken ▸ portEvent_outside s l ..
  · exact dropped ▸ (portEvent_outside s l ..).trans (laneEvent_latchEvent _ l _).portEvent

theorem portEvent_inboundSegment (g : Segment) : s.PortEvent l (s.inboundSegment l g) := by
  unfold State.inboundSegment
  split
  · obtain ⟨p, counted⟩ := probeOnly_probeCount ((s.reportSegment l g).handOn l s) l g.payloadLen
    rw [counted]
    exact ((laneEvent_reportSegment s l g).trans (laneEvent_handOn _ l s)).portEvent.trans (portEvent_outside _ l ..)
  · exact .refl l s

/-- The handling of an inbound frame, test by test (R2 to R13). -/
theorem portEvent_inboundFrame (f : Frame) : s.PortEvent l (s.inboundFrame l f) := by
  have sent := portEvent_sendStation s l f
  unfold State.inboundFrame
  split
  · exact (laneEvent_countLane s l _).portEvent
  · split
    · exact sent.trans (laneEvent_countLane _ l _).portEvent
    · split
      · exact portEvent_receiveControl s l f
      · split
        · exact sent.trans (laneEvent_countLane _ l _).portEvent
        · exact sent.trans (portEvent_inboundSegment _ l _)

/-- A response taken into the slot of its lane (R17). -/
theorem portEvent_takeHandOver {s : State} {l : LaneId} {r : Frame} (h : s.control.engine = .handOver l r) :
    s.PortEvent l s.takeHandOver := by
  by_cases slot : (s.lane l).response = none
  · obtain ⟨c, taken⟩ := takeFrame_control { s.modLane l (LaneState.takeResponse · r) with
      control := { s.control with engine := .idle } }
    rw [takeHandOver_of_slot h slot, taken]
    exact (laneEvent_modLane s l (LaneState.takeResponse · r)).portEvent.trans (portEvent_outside (s.modLane l _) l ..)
  · rw [takeHandOver_of_full h slot]
    exact .refl l s

theorem portEvent_offerSlot : s.PortEvent l (s.offerSlot l) := by
  by_cases h : ∃ r : Frame, s.control.engine = .handOver l r
  · obtain ⟨r, h⟩ := h
    rw [offerSlot_of_handOver h]
    exact portEvent_takeHandOver h
  · rw [offerSlot_of_none fun r e => h ⟨r, e⟩]
    exact .refl l s

/-- The end of a frame: the next one started, a waiting response taken, and the drain release it makes due (R16, R17,
R117). -/
theorem portEvent_endFrame : s.PortEvent l (s.endFrame l) := by
  obtain idle | ⟨f, sending⟩ := Option.eq_none_or_eq_some (s.lane l).output
  · rw [endFrame_of_idle idle]
    exact .refl l s
  · have started : s.PortEvent l ((s.sendFabric l f).modLane l LaneState.nextOutput) :=
      (portEvent_outside s l ..).trans (laneEvent_modLane (s.sendFabric l f) l _).portEvent
    rw [endFrame_of_output sending]
    refine State.PortEvent.trans ?_ (laneEvent_drain _ l).portEvent
    unfold State.served
    dsimp only
    split
    · exact started.trans (portEvent_offerSlot _ l)
    · exact started

end

/-- What an event of the lane path answers is an event of its lane's ports. -/
theorem portEvent_exec {c : Instr} {l : LaneId} {s t : State} (port : c.portLane = some l) (h : exec c s = .next t) :
    s.PortEvent l t := by
  have gated : ∀ {on : Bool} {u : State}, s.PortEvent l u → .next (if on then u else s) = exec c s → s.PortEvent l t := by
    intro on u event answer
    obtain rfl : (if on then u else s) = t := Host.Outcome.next.inj (answer.trans h)
    cases on
    · exact .refl l s
    · exact event
  cases c <;> cases port
  case inboundArrival f => exact gated (portEvent_inboundFrame s l f) rfl
  case outboundArrival f => exact gated (laneEvent_outboundFrame s l f).portEvent rfl
  case outputFrameEnd => exact gated (portEvent_endFrame s l) rfl
  case drainRelease => exact gated (laneEvent_drain s l).portEvent rfl

/-- Settles O51: each event of a lane's ports is one of its lane alone, with the probe and the control engine. -/
theorem portEventsStayOnTheirLane : Obligations.PortEventsStayOnTheirLane := by
  unfold Obligations.PortEventsStayOnTheirLane
  intro c l s t port answer
  obtain ⟨spares, latch, rest⟩ := portEvent_exec port answer
  exact ⟨fun l' ne => ⟨(spares l' ne).lane, (spares l' ne).records⟩, (congrArg State.windows rest :),
    (congrArg State.timer rest :), (congrArg State.keepalive rest :), (congrArg State.enables rest :),
    (congrArg State.straps rest :), (congrArg State.rstN rest :), (congrArg State.refclk rest :),
    (congrArg State.pending rest :), latch⟩

end Sys2Proof.Machine

/-! SUPPORT. Inbound payload on a record, and the probe's byte count at an arrival (R63, R68, R148). -/

namespace Sys2Proof.Machine

/-! ### The record -/

/-- The scale of a record that inbound payload opens without a SYN: UNKNOWN where it was LEARNING (R63). -/
def FlowRecord.heardScale (r : FlowRecord) : Option Nat :=
  match r.state with
  | .learning _ => none
  | .opened | .closing => r.scale

/-- Inbound payload without SYN, FIN and RST on a record (R59, R63). -/
theorem reported_of_payload {g : Segment} (inbound : g.direction = .inbound) (syn : g.syn = false) (fin : g.fin = false)
    (rst : g.rst = false) (payload : 0 < g.payloadLen) (r : FlowRecord) (d : ClassDecision) :
    r.reported g d = { r with
      epochBytes := min 4294967295 (r.epochBytes + g.payloadLen)
      expected := r.expected - g.payloadLen
      requestOpen := false
      idleTicks := 0
      seen := true
      scale := r.heardScale
      state := if r.state = .closing then .closing else .opened } := by
  have noClose : (r.afterSyn g d).afterClose g = r := by
    rw [afterSyn_of_plain syn]
    exact if_neg (by simp [rst, fin])
  rw [FlowRecord.reported, noClose, FlowRecord.afterPayload, if_pos ⟨inbound, payload⟩, FlowRecord.countPayload, syn,
    FlowRecord.heardScale]
  cases state : r.state <;> simp [FlowRecord.markSeen, Config.max32]

/-- An event of the flow table on a quiet lane leaves of every lane its mode, its queue, its parameters and its ready
list. -/
theorem lanes_of_quiet_handOn {s u : State} {l : LaneId} (lanes : u.lanes = s.lanes) (quiet : s.quiet l) (l' : LaneId) :
    (s.lane l').Accounted ((u.handOn l s).lane l') := by
  have lane := State.lane_congr lanes
  rw [handOn_of_idle (by rw [lane]; exact quiet.2), ← lane]
  by_cases own : l' = l
  · exact own ▸ accounted_afterActiveSet u l s
  · rw [(laneEvent_afterActiveSet u l s).lanes l' own]
    exact .refl _

/-! ### The probe -/

section

variable {s : State} {l : LaneId}

/-- The byte count of an engine that measures the lane rises, holding at 2^40 - 1 (R148). -/
theorem probeCount_of_measuring {r : ProbeRequest} (engine : s.probe.engine = .measuring r) (own : r.lane = l)
    (len : Nat) : (s.probeCount l len).probe =
      { s.probe with byteCount := min 1099511627775 (s.probe.byteCount + len) } := by
  unfold State.probeCount
  rw [engine]
  dsimp only
  rw [if_pos own]
  rfl

theorem probeCount_of_other (other : ∀ r : ProbeRequest, s.probe.engine = .measuring r → r.lane ≠ l) (len : Nat) :
    s.probeCount l len = s := by
  unfold State.probeCount
  split
  · rename_i r engine
    exact if_neg (other r engine)
  · rfl
  · rfl

/-- A segment of a tracking lane is made known to the probe as it was at the arrival (R13, R148). -/
theorem inboundSegment_counts (tracks : (s.lane l).mode.tracking = true) (g : Segment) :
    ∃ v : State, v.probe = s.probe ∧ s.inboundSegment l g = v.probeCount l g.payloadLen :=
  ⟨(s.reportSegment l g).handOn l s,
    (congrArg State.probe ((laneEvent_reportSegment s l g).trans (laneEvent_handOn _ l s)).rest :), if_pos tracks⟩

/-- An inbound frame that is no TCP segment does not reach the probe. -/
theorem probe_inboundFrame {f : Frame} (h : isOversize f = true ∨ isBad f = true ∨ segmentOf .inbound f = none) :
    (s.inboundFrame l f).probe = s.probe := by
  unfold State.inboundFrame
  split
  · rfl
  · rename_i size
    split
    · rfl
    · rename_i bad
      split
      · obtain ⟨c, taken | dropped⟩ := receiveControl_latch s l f
        · rw [taken]
        · rw [dropped]
          rfl
      · split
        · rfl
        · rename_i g segment
          exact nomatch segment.symm.trans ((h.resolve_left size).resolve_left bad)

end

/-- Settles O10: the segment reaches its record, its lane is handed on, and the probe counts it where it measures. -/
theorem inboundPayloadIsCounted : Obligations.InboundPayloadIsCounted := by
  unfold Obligations.InboundPayloadIsCounted
  refine ⟨fun l f g s r clocked tcp tracks syn fin rst payload found => ?_, fun l f g s clocked tcp => ?_,
    fun l f s => ⟨fun h => ⟨_, rfl, ?_⟩, _, rfl, ?_⟩⟩
  · have fields := fun x => reported_of_payload (direction_of_segmentOf tcp.2.2) syn fin rst payload x (s.lookup l g)
    obtain ⟨t, answer, arrived⟩ := exec_inbound_tracked clocked tcp tracks
    rw [reportSegment_of_found found] at arrived
    obtain ⟨u, hu⟩ : ∃ u : State, u = (s.modRecord l g.key (·.reported g (s.lookup l g))).sendStation l f := ⟨_, rfl⟩
    rw [← hu] at arrived
    have lanes : u.lanes = s.lanes := by rw [hu]; rfl
    have lane := State.lane_congr lanes l
    have after : ∀ l' : LaneId, t.lane l' = (u.handOn l s).lane l' := fun l' => (congrArg (State.lane · l') arrived :)
    have pool : t.pool = (u.handOn l s).pool := (congrArg State.pool arrived :)
    obtain ⟨released, handed, queue⟩ := handedOn_handOn (u := u) tracks (by rw [lane]; exact .refl _)
    refine ⟨t, u, released, answer, ?_, arrived ▸ handed, by rw [after]; exact queue, fun quiet => ?_⟩
    · rw [hu]
      simp only [fields]
      rfl
    · obtain ⟨-, own, -, others⟩ :=
        records_of_quiet_handOn (keepsPlace_reported g (s.lookup l g)) (by rw [hu]; rfl) lane quiet found
      rw [fields] at own
      refine ⟨(congrArg _ (findRecord_congr pool l g.key)).trans own, fun l' k other => ?_, fun l' => ?_⟩
      · rw [findRecord_congr pool, others l' k other]
      · have a := lanes_of_quiet_handOn lanes quiet l'
        rw [after]
        exact ⟨a.mode, a.queue, a.params, a.ready⟩
  · have answer : exec (.inboundArrival l f) s = .next ((s.sendStation l f).inboundSegment l g) := by
      rw [exec_inbound clocked, inboundFrame_tcp tcp]
    refine ⟨_, answer, fun r tracks engine own => ?_, fun silent => ?_⟩
    · obtain ⟨v, probe, counts⟩ := inboundSegment_counts (s := s.sendStation l f) tracks g
      rw [counts, probeCount_of_measuring (by rw [probe]; exact engine) own, probe]
      rfl
    · by_cases tracks : (s.lane l).mode.tracking = true
      · obtain ⟨v, probe, counts⟩ := inboundSegment_counts (s := s.sendStation l f) tracks g
        rw [counts, probeCount_of_other (by
          rw [probe]
          exact silent.resolve_left (by rw [tracks]; exact nofun)), probe]
        rfl
      · exact (congrArg State.probe (if_neg tracks :) :)
  · split
    · exact probe_inboundFrame h
    · rfl
  · split
    · exact (congrArg State.probe (laneEvent_outboundFrame s l f).rest :)
    · rfl

end Sys2Proof.Machine

/-! SUPPORT. The two limits of a silent record: it loses what it expects or leaves its slot, and its lane is handed on
(R68, R69). -/

namespace Sys2Proof.Machine

/-! ### The limits of one record -/

/-- At X, below A and not CLOSING, a record stays without what it expected (R69, step 3). -/
theorem limits_of_timeout {r : FlowRecord} {p : LaneParams} (timeout : p.timeout ≤ r.idleTicks)
    (young : r.idleTicks < p.ageLimit) (living : r.state ≠ .closing) :
    r.limits p = some { r with expected := 0, requestOpen := false } := by
  unfold FlowRecord.limits
  rw [if_pos timeout]
  exact (if_neg (Nat.not_le.mpr young)).trans (if_neg living)

/-- CLOSING, or at A, it leaves (R69, steps 4 and 5). -/
theorem limits_of_end {r : FlowRecord} {p : LaneParams} (ends : r.state = .closing ∨ p.ageLimit ≤ r.idleTicks) :
    r.limits p = none := by
  have same : ∀ x : FlowRecord, x = (if p.timeout ≤ r.idleTicks then { r with expected := 0, requestOpen := false } else r) →
      x.state = r.state ∧ x.idleTicks = r.idleTicks := by
    rintro x rfl
    split <;> exact ⟨rfl, rfl⟩
  obtain ⟨state, idle⟩ := same _ rfl
  unfold FlowRecord.limits
  dsimp only
  rw [state, idle]
  split
  · rfl
  · rename_i young
    exact if_pos (ends.resolve_right young)

section

variable {s : State} (canonical : s.PoolCanonical) {r : FlowRecord} (mem : r ∈ s.pool)

include canonical mem

/-- The limits of a slot are those of its one record (R54, R69). -/
theorem limitSlot_eq {F : FlowRecord → Option FlowRecord} (limits : r.limits (s.lane r.lane).params = F r) :
    s.limitSlot r.slot = { s with pool := s.pool.filterMap fun x => if x.slot = r.slot then F x else some x } := by
  unfold State.limitSlot
  refine congrArg (fun p => { s with pool := p }) (List.filterMap_congr fun x hx => ?_)
  split
  · rename_i here
    obtain rfl := eq_of_slot canonical hx mem here
    exact limits
  · rfl

theorem limitSlot_of_timeout (timeout : (s.lane r.lane).params.timeout ≤ r.idleTicks)
    (young : r.idleTicks < (s.lane r.lane).params.ageLimit) (living : r.state ≠ .closing) :
    s.limitSlot r.slot = { s with
      pool := s.pool.map fun x => if x.slot = r.slot then { x with expected := 0, requestOpen := false } else x } := by
  rw [limitSlot_eq canonical mem (F := fun x => some { x with expected := 0, requestOpen := false })
    (limits_of_timeout timeout young living), ← List.filterMap_eq_map]
  refine congrArg (fun p => { s with pool := p }) (List.filterMap_congr fun x _ => ?_)
  exact (apply_ite some _ _ _).symm

theorem limitSlot_of_end (ends : r.state = .closing ∨ (s.lane r.lane).params.ageLimit ≤ r.idleTicks) :
    s.limitSlot r.slot = { s with pool := s.pool.filter fun x => x.slot ≠ r.slot } := by
  rw [limitSlot_eq canonical mem (F := fun _ => none) (limits_of_end ends), ← List.filterMap_eq_filter]
  refine congrArg (fun p => { s with pool := p }) (List.filterMap_congr fun x _ => ?_)
  by_cases here : x.slot = r.slot <;> simp [Option.guard, here]

end

/-! ### The event -/

/-- What the limits of a slot do, whichever of them stands: an event of the record's lane, handed on once. -/
structure State.LimitedAt (s : State) (slot : Nat) (r : FlowRecord) (released : List QueueEntry) (t : State) : Prop where
  queue : (s.lane r.lane).queue = released ++ (t.lane r.lane).queue
  event : s.LaneEvent r.lane t
  handed : s.HandedOn r.lane (s.limitSlot slot) released t
  quiet : s.quiet r.lane → t.pool.map FlowRecord.apartGrant = (s.limitSlot slot).pool.map FlowRecord.apartGrant

theorem limitEvent_spec {s : State} {slot : Nat} {r : FlowRecord} (canonical : s.PoolCanonical)
    (silent : s.silentRecord slot = some r) : ∃ released : List QueueEntry, s.LimitedAt slot r released (s.limitEvent slot r) := by
  obtain ⟨mem, rfl, tracks, -, -⟩ := silentRecord_spec silent
  obtain ⟨released, handed, queue⟩ := handedOn_handOn (s := s) (u := s.limitSlot r.slot) tracks (.refl _)
  have limited : s.LaneEvent r.lane (s.limitSlot r.slot) :=
    laneEvent_pool s r.lane _ fun l' ne => records_limitSlot canonical mem ne
  refine ⟨released, queue, limited.trans (laneEvent_handOn _ _ s), handed, fun quiet => ?_⟩
  rw [State.limitEvent, handOn_of_idle (u := s.limitSlot r.slot) quiet.2, apartGrant_afterActiveSet]

/-- Settles O42: each limit is the limits of the record's slot, which hold one record, and the hand-on of its lane. -/
theorem silentRecordTimesOutOrAgesOut : Obligations.SilentRecordTimesOutOrAgesOut := by
  unfold Obligations.SilentRecordTimesOutOrAgesOut
  refine ⟨fun slot s r clocked canonical silent timeout => ?_, fun slot s r clocked canonical silent old => ?_⟩
  all_goals
    obtain ⟨mem, here, -⟩ := silentRecord_spec silent
    obtain ⟨released, queue, event, handed, quiet⟩ := limitEvent_spec canonical silent
  · have answer : exec (.expectationTimeout slot) s = .next (s.limitEvent slot r) := by
      refine congrArg Host.Outcome.next ?_
      rw [silent]
      exact if_pos ⟨clocked, timeout⟩
    refine ⟨_, released, answer, queue, event, fun living young => ?_, fun ends => ?_⟩
    · rw [← here, limitSlot_of_timeout canonical mem timeout young living, here] at handed quiet
      refine ⟨handed, fun q => (quiet q).trans ?_⟩
      rw [List.map_map]
      rfl
    · rw [← here, limitSlot_of_end canonical mem ends, here] at handed
      exact handed
  · have answer : exec (.ageLimit slot) s = .next (s.limitEvent slot r) := by
      refine congrArg Host.Outcome.next ?_
      rw [silent]
      exact if_pos ⟨clocked, old⟩
    rw [← here, limitSlot_of_end canonical mem (.inr old), here] at handed quiet
    exact ⟨_, released, answer, queue, event, handed, quiet⟩

end Sys2Proof.Machine

/-! SUPPORT. The hold limit: what a re-evaluation that forces heads counts FORCED, the head it ends at, and HOLD_LIMIT
(R106, R109, R111). -/

namespace Sys2Proof.Machine

/-! ### FORCED -/

/-- A GATED entry with held ticks of H or more: one that the gate's tick forces (R111). -/
def QueueEntry.atLimit (limit : Nat) (e : QueueEntry) : Bool := decide (e.kind ≠ .follower ∧ limit ≤ e.heldTicks)

theorem atLimit_of_gated {e : QueueEntry} {d : ClassDecision} (kind : e.kind = .gated d) {limit : Nat} :
    e.atLimit limit = true ↔ limit ≤ e.heldTicks := by
  rw [QueueEntry.atLimit, decide_eq_true_eq, kind]
  exact and_iff_right nofun

theorem atLimit_of_follower {e : QueueEntry} (kind : e.kind = .follower) (limit : Nat) : e.atLimit limit = false :=
  decide_eq_false fun c => c.1 kind

/-- How often FORCED is counted while some entries are released on a lane that forces at `limit` (R111). -/
def forcedOf (limit : Nat) (released : List QueueEntry) (forced : Nat) : Nat :=
  bump^[(released.filter (·.atLimit limit)).length] forced

theorem forcedOf_cons {limit : Nat} {e : QueueEntry} (released : List QueueEntry) (forced : Nat) :
    forcedOf limit (e :: released) forced =
      forcedOf limit released (if e.atLimit limit then bump forced else forced) := by
  unfold forcedOf
  cases h : e.atLimit limit with
  | true => rw [List.filter_cons_of_pos h]; rfl
  | false => rw [List.filter_cons_of_neg (by rw [h]; exact Bool.false_ne_true)]; rfl

theorem id_le_bump : id ≤ bump := by
  intro n
  unfold bump
  split
  · exact Nat.le_succ n
  · exact le_rfl

theorem le_forcedOf (limit : Nat) (released : List QueueEntry) (forced : Nat) :
    forced ≤ forcedOf limit released forced := Function.id_le_iterate_of_id_le id_le_bump _ forced

/-- A release leaves its lane's mode, parameters and count of FORCED. -/
theorem releasing_keeps {s : State} {l : LaneId} {e : QueueEntry} {rest : List QueueEntry}
    (mode : (s.lane l).mode.enforcing = true) (queue : (s.lane l).queue = e :: rest) :
    ((s.releasing l e rest).lane l).mode = (s.lane l).mode ∧ ((s.releasing l e rest).lane l).params = (s.lane l).params ∧
      ((s.releasing l e rest).lane l).counters.forced = (s.lane l).counters.forced := by
  rw [← releaseHead_eq_releasing s l e rest mode queue]
  have stays := stays_releaseHead (l := l) (entries_any s)
  exact ⟨(stays.modes l).1, stays.params l, (congrArg (·.1.1) (gateTally_releaseHead s l) :)⟩

/-- A re-evaluation at the gate's tick counts FORCED once for each entry that leaves at H, and for no other (R111). -/
theorem State.Reevaluated.forced_count {l : LaneId} {s t : State} {released : List QueueEntry}
    (h : s.Reevaluated true l released t) : (s.lane l).mode.enforcing = true →
      (t.lane l).counters.forced = forcedOf (s.lane l).params.holdLimit released (s.lane l).counters.forced := by
  induction h with
  | empty => exact fun _ => rfl
  | blocked => exact fun _ => rfl
  | follower queue kind _ ih =>
    intro m
    obtain ⟨mode, params, forced⟩ := releasing_keeps m queue
    rw [ih (by rw [mode]; exact m), params, forced, forcedOf_cons, atLimit_of_follower kind]
    rfl
  | admitted queue kind below _ _ ih =>
    intro m
    obtain ⟨mode, params, forced⟩ := releasing_keeps m queue
    rw [ih (by rw [mode]; exact m), params, forced, forcedOf_cons,
      if_neg fun c => Nat.not_le.mpr (below rfl) ((atLimit_of_gated kind).mp c)]
  | forced queue kind _ limit _ ih =>
    intro m
    obtain ⟨mode, params, forced⟩ := releasing_keeps m queue
    have counted := ih (by rw [State.lane_modLane_same, mode]; exact m)
    rw [State.lane_modLane_same] at counted
    rw [counted, params, forced, forcedOf_cons, if_pos ((atLimit_of_gated kind).mpr limit)]

/-- The head that such a re-evaluation ends at is below H (R111). -/
theorem State.Reevaluated.below_end {l : LaneId} {s t : State} {released : List QueueEntry}
    (h : s.Reevaluated true l released t) : ∀ (e : QueueEntry) (rest : List QueueEntry), (t.lane l).queue = e :: rest →
      e.heldTicks < (t.lane l).params.holdLimit := by
  induction h with
  | empty queue => exact fun e rest q => nomatch queue.symm.trans q
  | blocked queue _ _ below =>
    intro e rest q
    obtain ⟨rfl, -⟩ := List.cons.inj (queue.symm.trans q)
    exact below rfl
  | follower _ _ _ ih => exact ih
  | admitted _ _ _ _ _ ih => exact ih
  | forced _ _ _ _ _ ih => exact ih

/-! ### HOLD_LIMIT -/

/-- A GATED head at H is the first to leave (R111). -/
theorem State.Reevaluated.forces_head {l : LaneId} {s t : State} {released : List QueueEntry} {e : QueueEntry}
    {rest : List QueueEntry} {d : ClassDecision} (h : s.Reevaluated true l released t)
    (queue : (s.lane l).queue = e :: rest) (kind : e.kind = .gated d)
    (limit : (s.lane l).params.holdLimit ≤ e.heldTicks) : ∃ later : List QueueEntry, released = e :: later := by
  cases h with
  | empty q => exact nomatch q.symm.trans queue
  | blocked q _ _ below =>
    obtain ⟨rfl, -⟩ := List.cons.inj (q.symm.trans queue)
    exact absurd limit (Nat.not_le.mpr (below rfl))
  | follower q =>
    obtain ⟨rfl, -⟩ := List.cons.inj (q.symm.trans queue)
    exact ⟨_, rfl⟩
  | admitted q =>
    obtain ⟨rfl, -⟩ := List.cons.inj (q.symm.trans queue)
    exact ⟨_, rfl⟩
  | forced q =>
    obtain ⟨rfl, -⟩ := List.cons.inj (q.symm.trans queue)
    exact ⟨_, rfl⟩

/-- Settles O44: the loop is a re-evaluation that forces, and its first step forces the head. -/
theorem holdLimitForcesTheHead : Obligations.HoldLimitForcesTheHead := by
  unfold Obligations.HoldLimitForcesTheHead
  intro l s e rest d clocked mode queue kind limit
  have atLimit : (s.lane l).headAtLimit = true := by
    rw [LaneState.headAtLimit, mode, queue, decide_eq_true rfl]
    dsimp only
    rw [kind]
    exact decide_eq_true limit
  have enforces : (s.lane l).mode.enforcing = true := by rw [mode]; rfl
  obtain ⟨t, ht⟩ : ∃ t : State, t = State.reevaluateLoop true (s.lane l).queue.length l s := ⟨_, rfl⟩
  obtain ⟨all, loop⟩ := reevaluateLoop_reevaluated true l _ s mode le_rfl
  rw [← ht] at loop
  obtain ⟨released, rfl⟩ := loop.forces_head queue kind limit
  obtain ⟨split, leaves⟩ := loop.released enforces
  have stays := ht ▸ stays_reevaluateLoop true (s.lane l).queue.length l (entries_any s)
  have counted := loop.forced_count enforces
  refine ⟨t, released, ?_, ?_, leaves, (stays.modes l).1.trans mode, loop, stays.length_framesOf l, ?_, counted,
    fun e' rest' left => ⟨loop.below_end e' rest' left, loop.blocked_end e' rest' left⟩,
    ht ▸ laneEvent_reevaluateLoop true _ l s⟩
  · rw [ht]
    exact congrArg Host.Outcome.next (if_pos (by rw [clocked, atLimit]; rfl))
  · exact (List.cons.inj (queue.symm.trans split)).2
  · rw [counted, forcedOf_cons, if_pos ((atLimit_of_gated kind).mpr limit)]
    exact le_forcedOf ..

end Sys2Proof.Machine

/-! SUPPORT. The gate's tick: the turn of one lane, what the turns of the others leave of its releases, and the tick itself
(R57, R106, R109, R111). -/

namespace Sys2Proof.Machine

/-! ### Records are only added -/

/-- An event that keeps every record in its place, and may add others. -/
def State.Grows (s t : State) : Prop := s.places.Sublist t.places

theorem grows_of_places {s t : State} (h : t.places = s.places) : s.Grows t := by
  rw [State.Grows, h]

theorem sublist_insertRecord (x : FlowRecord) (pool : List FlowRecord) : pool.Sublist (insertRecord x pool) := by
  induction pool with
  | nil => exact List.nil_sublist _
  | cons r rest ih =>
    unfold insertRecord
    split
    · exact List.sublist_cons_self x _
    · exact ih.cons_cons r

theorem grows_tableCharge (s : State) (l : LaneId) (e : QueueEntry) : s.Grows (s.tableCharge l e) := by
  have charged : ∀ (u : State) (cost : Nat), (u.modRecord l e.key fun r => r.charge cost).places = u.places :=
    fun u cost => places_map rfl fun r => by split <;> exact ⟨rfl, rfl, rfl⟩
  unfold State.tableCharge
  split
  · rename_i d _
    obtain ⟨-, -, eq⟩ | ⟨-, ⟨-, eq⟩ | ⟨-, -, eq⟩ | ⟨-, -, eq⟩⟩ := chargeRecord_cases s l e.key d <;> rw [eq]
    · exact grows_of_places (charged s d.cost)
    · exact grows_of_places rfl
    · exact grows_of_places rfl
    · rw [State.Grows, charged]
      exact (sublist_insertRecord _ s.pool).map _
  · exact grows_of_places rfl

theorem grows_releaseHead (s : State) (l : LaneId) : s.Grows (s.releaseHead l) := by
  have passes : ∀ (u : State) (f : Frame), (u.passOut l f).places = u.places := by
    intro u f
    unfold State.passOut
    split
    · exact (keepsRecords_rewrite u l f).places
    · rfl
  unfold State.releaseHead
  split
  · exact grows_of_places rfl
  · rename_i e rest _
    rw [State.Grows, passes, (keepsRecords_account _ l e).places]
    exact grows_tableCharge (s.modLane l fun x => { x with queue := rest }) l e

theorem grows_reevaluateLoop (force : Bool) (n : Nat) (l : LaneId) : ∀ s : State,
    s.Grows (State.reevaluateLoop force n l s) := by
  induction n with
  | zero => exact fun _ => .refl _
  | succ n ih =>
    intro s
    have released := grows_releaseHead s l
    unfold State.reevaluateLoop
    split
    · exact .refl _
    · split
      · exact released.trans (ih _)
      · split
        · exact released.trans (ih ((s.releaseHead l).countLane l .forced))
        · split
          · exact released.trans (ih _)
          · exact .refl _

theorem grows_gateTickLane (l : LaneId) (s : State) : s.Grows (State.gateTickLane l s) := by
  unfold State.gateTickLane
  split
  · dsimp only
    split
    · exact grows_reevaluateLoop true _ l (s.modLane l fun x => { x with queue := x.queue.map QueueEntry.tick })
    · exact grows_of_places rfl
  · exact .refl _

/-! ### The turns of other lanes -/

theorem findRecord_of_records {s t : State} {l : LaneId} (h : t.records l = s.records l) (key : FlowKey) :
    t.findRecord l key = s.findRecord l key := by
  have found : ∀ u : State, u.findRecord l key = (u.records l).find? fun r => r.key = key := by
    intro u
    rw [State.findRecord, State.records, List.find?_filter]
    congr 1
    funext r
    simp
  rw [found, found, h]

/-- An event that spares a lane and adds records at most releases nothing on it. -/
theorem State.Spares.released_nil {s t : State} {l : LaneId} (h : s.Spares l t) (sent : t.fabricSent = s.fabricSent)
    (grows : s.Grows t) : s.Released l [] t where
  frames := ⟨[], .nil, by rw [State.outgoing, State.outgoing, h.lane, sent, List.append_nil]⟩
  charged key r found := ⟨r, (findRecord_of_records h.records key).trans found, by simp [chargesTo], by simp [chargesTo],
    fun _ => rfl⟩
  uncharged key absent _ := (findRecord_of_records h.records key).trans absent
  made _ _ _ _ makes := nomatch makes
  order _ _ _ split := by simp at split
  untracked := by rw [h.lane]; rfl
  stands x hx := by
    obtain ⟨x', hx', place⟩ := List.mem_map.mp (grows.subset (List.mem_map_of_mem hx))
    obtain ⟨slot, place⟩ := Prod.mk.inj place
    exact ⟨x', hx', slot, Prod.mk.inj place⟩
  roomless full := by
    have count : t.recordCount l = s.recordCount l := by rw [State.recordCount, h.records]; rfl
    have longer := grows.length_le
    rw [State.places, State.places, List.length_map, List.length_map] at longer
    rw [Bool.eq_false_iff, Ne, hasRoom_iff] at full ⊢
    rw [count, h.lane]
    exact fun room => full ⟨room.1, lt_of_le_of_lt longer room.2⟩

/-- The turn of one lane with what the turns before it and after it keep, said of the very state in which its turn begins,
which laneTurn_forEachLane leaves open. -/
theorem laneTurn_forEachLane_keeping {f : LaneId → State → State} {Q : State → State → Prop} {l : LaneId}
    (event : ∀ (k : LaneId) (s : State), s.LaneEvent k (f k s)) (refl : ∀ s : State, Q s s)
    (trans : ∀ {s t u : State}, Q s t → Q t u → Q s u) (other : ∀ (k : LaneId) (s : State), l ≠ k → Q s (f k s))
    (s : State) : ∃ u : State, s.LaneTurn l u (f l u) (forEachLane f s) ∧ Q s u ∧ Q (f l u) (forEachLane f s) := by
  have spares : ∀ (k l : LaneId) (s : State), l ≠ k → s.Spares l (f k s) := fun k l s => (event k s).spares
  obtain ⟨before, after, split, early, late, apart⟩ := allLanes_split l
  obtain ⟨u, hu⟩ : ∃ u : State, u = before.foldl (fun s k => f k s) s := ⟨_, rfl⟩
  have whole : forEachLane f s = after.foldl (fun s k => f k s) (f l u) := by
    rw [forEachLane, split, List.foldl_append, List.foldl_cons, ← hu]
  have kept : ∀ (ls : List LaneId), l ∉ ls → ∀ v : State, Q v (ls.foldl (fun s k => f k s) v) := fun ls h v =>
    foldl_keeps (P := Q v) ls (fun k hk w hw => trans hw (other k w fun e => h (e ▸ hk))) v (refl v)
  have own := hu ▸ foldl_spares spares before early s
  have left := whole ▸ foldl_spares spares after late (f l u)
  refine ⟨u, ⟨⟨own.lane, own.records⟩, fun l' ne => ?_, hu ▸ foldl_sameRest event before s, event l u, left.lane,
    left.records⟩, hu ▸ kept before early s, whole ▸ kept after late (f l u)⟩
  by_cases h : l' ∈ before
  · have stands := (spares l l' u ne).trans (whole ▸ foldl_spares spares after (apart l' h) (f l u))
    exact .inr ⟨stands.lane.symm, stands.records.symm⟩
  · have stands := hu ▸ foldl_spares spares before h s
    exact .inl ⟨stands.lane, stands.records⟩

/-! ### The turn of one lane -/

/-- A lane's queue one tick older (R111). -/
def State.ticked (s : State) (l : LaneId) : State :=
  s.modLane l fun x => { x with queue := x.queue.map QueueEntry.tick }

theorem lane_ticked (s : State) (l : LaneId) :
    (s.ticked l).lane l = { s.lane l with queue := (s.lane l).queue.map QueueEntry.tick } := State.lane_modLane_same ..

/-- What a release does does not ask how long its entries were held. -/
theorem State.Released.of_tick {s t : State} {l : LaneId} {entries : List QueueEntry}
    (h : s.Released l (entries.map QueueEntry.tick) t) : s.Released l entries t := by
  have charges : ∀ key : FlowKey, chargesTo key (entries.map QueueEntry.tick) = chargesTo key entries := fun _ =>
    List.filterMap_map
  have makers : ∀ (key : FlowKey) (q : List QueueEntry), makersFor key (q.map QueueEntry.tick) = makersFor key q :=
    fun key q => by rw [makersFor, List.filterMap_map]; rfl
  have frames : (entries.map QueueEntry.tick).map (·.frame) = entries.map (·.frame) := List.map_map
  refine {
    frames := frames ▸ h.frames
    charged := fun key => charges key ▸ h.charged key
    uncharged := fun key => makers key entries ▸ h.uncharged key
    made := fun key => makers key entries ▸ h.made key
    order := fun before e after split left key absent none => ?_
    untracked := ?_
    stands := h.stands
    roomless := h.roomless }
  · exact h.order (before.map QueueEntry.tick) e.tick (after.map QueueEntry.tick)
      (by rw [split, List.map_append, List.map_cons]) left key absent ((makers key before).trans none)
  · rw [h.untracked, List.filter_map, List.length_map]
    rfl

/-- The turn of an ACTIVE lane: its queue, one tick older, is re-evaluated, and what leaves it leaves from the head. -/
structure State.TickTurn (u : State) (l : LaneId) (released kept : List QueueEntry) (v : State) : Prop where
  queue : (u.lane l).queue = released ++ kept
  left : (v.lane l).queue = kept.map QueueEntry.tick
  leaves : u.Released l released v
  loop : (u.ticked l).Reevaluated true l (released.map QueueEntry.tick) v

theorem gateTickLane_of_active {u : State} {l : LaneId} (active : (u.lane l).mode = .active) :
    ∃ released kept : List QueueEntry, u.TickTurn l released kept (State.gateTickLane l u) := by
  have enforces : (u.lane l).mode.enforcing = true := by rw [active]; rfl
  obtain ⟨v, hv⟩ : ∃ v : State, v = State.gateTickLane l u := ⟨_, rfl⟩
  have eq : v = State.reevaluateLoop true (u.lane l).queue.length l (u.ticked l) := by
    rw [hv, State.gateTickLane, if_pos enforces]
    exact if_pos active
  obtain ⟨all, loop⟩ := reevaluateLoop_reevaluated true l (u.lane l).queue.length (u.ticked l)
    (by rw [lane_ticked]; exact active) (by rw [lane_ticked]; exact (List.length_map _).le)
  rw [← eq] at loop
  obtain ⟨split, leaves⟩ := loop.released (by rw [lane_ticked]; exact enforces)
  rw [lane_ticked] at split
  obtain ⟨released, kept, queue, rfl, left⟩ := List.map_eq_append_iff.mp split
  have older : u.Released l [] (u.ticked l) := by
    refine State.KeepsRecords.released_nil (.of_pool rfl ?_ ?_) ?_
    · rw [lane_ticked]
    · rw [lane_ticked]
    · rw [State.outgoing, State.outgoing, lane_ticked]
      rfl
  rw [← hv]
  exact ⟨released, kept, queue, left.symm, older.append leaves.of_tick, loop⟩

theorem State.TickTurn.forced {u v : State} {l : LaneId} {released kept : List QueueEntry}
    (h : u.TickTurn l released kept v) (active : (u.lane l).mode = .active) :
    (v.lane l).counters.forced = bump^[(released.filter fun e =>
      e.kind ≠ .follower ∧ (u.lane l).params.holdLimit ≤ min 255 (e.heldTicks + 1)).length]
        (u.lane l).counters.forced := by
  have counted := h.loop.forced_count (by rw [lane_ticked]; rw [active]; rfl)
  rw [lane_ticked, forcedOf, List.filter_map, List.length_map] at counted
  exact counted

/-- A re-evaluation releases nothing where the head is GATED, fails admission and is below H. -/
theorem State.Reevaluated.eq_of_blocked {l : LaneId} {s t : State} {released : List QueueEntry} {e : QueueEntry}
    {rest : List QueueEntry} {d : ClassDecision} (h : s.Reevaluated true l released t)
    (queue : (s.lane l).queue = e :: rest) (kind : e.kind = .gated d) (below : e.heldTicks < (s.lane l).params.holdLimit)
    (fails : s.passesAdmission l e.key d.cost = false) : t = s := by
  cases h with
  | empty q => rfl
  | blocked q => rfl
  | follower q k =>
    obtain ⟨rfl, -⟩ := List.cons.inj (q.symm.trans queue)
    exact nomatch k.symm.trans kind
  | admitted q k _ passes =>
    obtain ⟨rfl, -⟩ := List.cons.inj (q.symm.trans queue)
    obtain rfl := EntryKind.gated.inj (k.symm.trans kind)
    exact nomatch passes.symm.trans fails
  | forced q _ _ limit =>
    obtain ⟨rfl, -⟩ := List.cons.inj (q.symm.trans queue)
    exact absurd limit (Nat.not_le.mpr below)

/-- A head that stays blocked at the tick keeps every entry behind it, and its lane as it was (R111). -/
theorem gateTickLane_of_blocked {u : State} {l : LaneId} {e : QueueEntry} {rest : List QueueEntry} {d : ClassDecision}
    (active : (u.lane l).mode = .active) (queue : (u.lane l).queue = e :: rest) (kind : e.kind = .gated d)
    (below : min 255 (e.heldTicks + 1) < (u.lane l).params.holdLimit) (fails : u.passesAdmission l e.key d.cost = false) :
    State.gateTickLane l u = u.ticked l := by
  obtain ⟨released, kept, turn⟩ := gateTickLane_of_active active
  refine turn.loop.eq_of_blocked (e := e.tick) (rest := rest.map QueueEntry.tick) (d := d) ?_ kind ?_ ?_
  · rw [lane_ticked, queue]
    rfl
  · rw [lane_ticked]
    exact below
  · refine (passesAdmission_congr (s := u) (t := u.ticked l) rfl ?_ ?_ ?_ e.key d.cost).trans fails <;> rw [lane_ticked]

theorem gateTickLane_of_draining {u : State} {l : LaneId} (draining : (u.lane l).mode = .draining) :
    State.gateTickLane l u = u.ticked l := by
  rw [State.gateTickLane, draining]
  rfl

/-! ### The tick -/

/-- The turn of a lane in the tick, in which alone anything leaves its queue. -/
theorem gateTick_turn (s : State) (l : LaneId) : ∃ u : State,
    s.LaneTurn l u (State.gateTickLane l u) (forEachLane State.gateTickLane s) ∧ s.Released l [] u ∧
      (State.gateTickLane l u).Released l [] (forEachLane State.gateTickLane s) := by
  refine laneTurn_forEachLane_keeping (Q := fun s t => s.Released l [] t) laneEvent_gateTickLane (fun s => .nil s l)
    (fun h h' => h.append h') (fun k s ne => ?_) s
  have event := laneEvent_gateTickLane k s
  exact (event.spares ne).released_nil (congrArg State.fabricSent event.rest :) (grows_gateTickLane k s)

/-- Settles O43: each lane has one turn; on an ACTIVE lane it is a re-evaluation of the older queue. -/
theorem gateTickLeavesOnlyBlockedHeads : Obligations.GateTickLeavesOnlyBlockedHeads := by
  unfold Obligations.GateTickLeavesOnlyBlockedHeads
  intro s clocked
  obtain ⟨t, ht⟩ : ∃ t : State, t = forEachLane State.gateTickLane s := ⟨_, rfl⟩
  have turn := gateTick_turn s
  rw [← ht] at turn
  have stays : s.Stays anyKey anyWeight t := ht ▸ stays_forEachLane (fun _ _ => stays_gateTickLane) (entries_any s)
  have alone : ∀ (l : LaneId) (u : State), s.LaneTurn l u (u.ticked l) t → t.records l = s.records l ∧
      t.lane l = { s.lane l with queue := (s.lane l).queue.map QueueEntry.tick } := by
    intro l u h
    rw [h.after.1, h.after.2, lane_ticked, ← h.before.1]
    exact ⟨h.before.2, rfl⟩
  refine ⟨t, ht ▸ congrArg Host.Outcome.next (if_pos clocked), fun l => ⟨(stays.modes l).1, stays.length_framesOf l⟩,
    fun l free => ?_, fun l draining => ?_, fun l active => ?_, fun l e rest d active queue kind below fails => ?_,
    fun l e rest active queue => ?_⟩ <;>
    obtain ⟨u, h, before, after⟩ := turn l
  · have still : State.gateTickLane l u = u := if_neg (by rw [h.before.1, free]; exact Bool.false_ne_true)
    rw [still] at h
    exact ⟨h.after.1.trans h.before.1, h.after.2.trans h.before.2⟩
  · rw [gateTickLane_of_draining (by rw [h.before.1]; exact draining)] at h
    exact alone l u h
  · have active' : (u.lane l).mode = .active := by rw [h.before.1]; exact active
    obtain ⟨released, kept, own⟩ := gateTickLane_of_active active'
    have forced := own.forced active'
    have queue := own.queue
    have left := own.left
    rw [h.before.1] at forced queue
    rw [← h.after.1] at forced left
    have leaves := (before.append own.leaves).append after
    rw [List.append_nil] at leaves
    exact ⟨released, kept, queue, leaves, left, forced, u, _, h, own.loop⟩
  · have same : u.passesAdmission l e.key d.cost = s.passesAdmission l e.key d.cost := by
      refine passesAdmission_congr (ledger_of_records h.before.2) ?_ ?_ ?_ e.key d.cost <;> rw [h.before.1]
    have blocked := gateTickLane_of_blocked (u := u) (l := l) (e := e) (rest := rest) (d := d)
      (by rw [h.before.1]; exact active) (by rw [h.before.1]; exact queue) kind (by rw [h.before.1]; exact below)
      (same.trans fails)
    rw [blocked] at h
    exact alone l u h
  · obtain ⟨released, kept, own⟩ := gateTickLane_of_active (u := u) (l := l) (by rw [h.before.1]; exact active)
    have spared : (State.gateTickLane l u).Spares l t := ⟨h.after.1, h.after.2⟩
    refine ⟨?_, (own.loop.blocked_end.same spared.sameGate) e rest queue⟩
    rw [h.after.1] at queue ⊢
    exact own.loop.below_end e rest queue

end Sys2Proof.Machine

/-! SUPPORT. A request start that leaves at once: the gate's stage lets it pass, charged, and what the charge leaves on the
flow table (R64, R101, R103 to R107). -/

namespace Sys2Proof.Machine

/-! ### The gate's counters -/

section

variable (s : State) (l : LaneId)

theorem gateTally_reportSegment (g : Segment) : (s.reportSegment l g).gateTally l = s.gateTally l := by
  cases found : s.findRecord l g.key with
  | some r =>
    rw [reportSegment_of_found found]
    rfl
  | none =>
    by_cases makes : g.Makes
    · by_cases exempt : (s.lookup l g).role = .exempt
      · rw [reportSegment_of_exempt found exempt]
      · cases room : s.hasRoom l with
        | false =>
          rw [reportSegment_of_refused found makes exempt room]
          exact gateTally_countLane s l (.inl rfl)
        | true =>
          rw [reportSegment_of_made found makes exempt room]
          rfl
    · rw [reportSegment_of_not_makes found makes]

/-- A re-evaluation that forces no head counts none of the gate's counters (R109). -/
theorem gateTally_reevaluate : (s.reevaluate l).gateTally l = s.gateTally l := by
  have loop : ∀ (n : Nat) (s : State), (State.reevaluateLoop false n l s).gateTally l = s.gateTally l := by
    intro n
    induction n with
    | zero => exact fun _ => rfl
    | succ n ih =>
      intro s
      have released := (ih (s.releaseHead l)).trans (gateTally_releaseHead s l)
      unfold State.reevaluateLoop
      split
      · rfl
      · split
        · exact released
        · rw [Bool.false_and, if_neg Bool.false_ne_true]
          split
          · exact released
          · rfl
  unfold State.reevaluate
  split
  · exact loop _ s
  · rfl

theorem gateTally_handOn (before : State) : (s.handOn l before).gateTally l = s.gateTally l := by
  unfold State.handOn
  dsimp only
  split
  · exact (gateTally_reevaluate _ l).trans (gateTally_afterActiveSet s l before)
  · exact gateTally_afterActiveSet s l before

theorem gateTally_charge (key : FlowKey) (d : ClassDecision) : (s.charge l key d).gateTally l = s.gateTally l :=
  gateTally_account s l ⟨.gated d, key, [], 0⟩

end

/-! ### The charge without a record -/

/-- A record that a charge has made, field by field (R58, R64). -/
theorem fields_of_made {r : FlowRecord} {slot : Nat} {l : LaneId} {key : FlowKey} {d : ClassDecision}
    (h : r.core = ((newRecord slot l key .opened d).charge d.cost).core) :
    r.state = .opened ∧ r.scale = none ∧ r.slot = slot ∧ r.expected = min 16777215 d.cost ∧ r.requestOpen = true ∧
      r.cls = d.cls ∧ r.weight = d.weight := by
  have expected : r.expected = min 16777215 (0 + d.cost) := (congrArg FlowRecord.expected h :)
  rw [Nat.zero_add] at expected
  exact ⟨(congrArg FlowRecord.state h :), (congrArg FlowRecord.scale h :), (congrArg FlowRecord.slot h :), expected,
    (congrArg FlowRecord.requestOpen h :), (congrArg FlowRecord.cls h :), (congrArg FlowRecord.weight h :)⟩

section

variable {s : State} {l : LaneId} {key : FlowKey} {d : ClassDecision} (maker : d.role ≠ .exempt)
  (absent : s.findRecord l key = none)

include maker absent

/-- With room, the charge makes a record in the lowest free slot (R57, R58, R64). -/
theorem findRecord_charge_of_room (room : s.hasRoom l = true) : ∃ r : FlowRecord,
    (s.charge l key d).findRecord l key = some r ∧
      r.core = ((newRecord (lowestFree 0 s.pool) l key .opened d).charge d.cost).core := by
  have made : (s.chargeRecord l key d).findRecord l key =
      some ((newRecord (lowestFree 0 s.pool) l key .opened d).charge d.cost) := by
    obtain ⟨r, found, -⟩ | ⟨-, ⟨exempt, -⟩ | ⟨-, full, -⟩ | ⟨-, -, eq⟩⟩ := chargeRecord_cases s l key d
    · exact nomatch absent.symm.trans found
    · exact absurd exempt maker
    · exact nomatch room.symm.trans full
    · rw [eq, findRecord_modRecord (f := fun r => r.charge d.cost) _ l key key fun _ => ⟨rfl, rfl⟩,
        findRecord_insertRecord (l := l) (key := key) ⟨rfl, rfl⟩ absent, if_pos rfl, Option.map_some, if_pos rfl]
  obtain ⟨r, found, same⟩ := findRecord_afterActiveSet s made
  exact ⟨r, found, (congrArg FlowRecord.core same :)⟩

/-- Without room it applies to nothing, and UNTRACKED is counted (R57, R64, R107). -/
theorem charge_of_full (full : s.hasRoom l = false) : s.charge l key d = s.countLane l .untracked := by
  have refused : s.chargeRecord l key d = s.countLane l .untracked := by
    obtain ⟨r, found, -⟩ | ⟨-, ⟨exempt, -⟩ | ⟨-, -, eq⟩ | ⟨-, room, -⟩⟩ := chargeRecord_cases s l key d
    · exact nomatch absent.symm.trans found
    · exact absurd exempt maker
    · exact eq
    · exact nomatch room.symm.trans full
  rw [State.charge, refused, State.afterActiveSet, if_neg]
  rw [(still_countLane s l .untracked).set]
  simp

end

/-! ### The gate's stage -/

section

variable {s : State} {l : LaneId} {f : Frame} {g : Segment} {d : ClassDecision}

/-- What makes a segment of the station a request start (R65). -/
theorem requestStart_eq_true (outbound : g.direction = .outbound) (payload : 0 < g.payloadLen)
    (request : d.role = .request) (rst : g.rst = false) (free : s.holds l g.key = false)
    (closed : ∀ r : FlowRecord, s.findRecord l g.key = some r → r.requestOpen = false) :
    s.requestStart l g d = true := by
  rw [State.requestStart, decide_eq_true ⟨outbound, payload⟩, decide_eq_true request, rst, free]
  cases found : s.findRecord l g.key with
  | none => rfl
  | some r => simp [closed r found]

/-- A request start that waits behind no entry of its connection is charged and passes: on an ACTIVE lane where the queue
is empty and it is admitted, on the others without a test (R101, R103 to R105). -/
theorem gateArrival_charges (free : s.holds l g.key = false) (admitted : (s.lane l).mode = .active →
    (s.lane l).queue = [] ∧ s.passesAdmission l g.key d.cost = true) :
    s.gateArrival l g f true d = (s.charge l g.key d).passOut l f := by
  rw [State.gateArrival, free, Bool.and_false, if_neg Bool.false_ne_true, if_pos rfl]
  exact if_neg fun waits => waits.2 (admitted waits.1)

theorem mode_handOn (b : State) : ((s.handOn l b).lane l).mode = (s.lane l).mode :=
  ((stays_handOn (l := l) b (entries_any s)).modes l).1

/-- What leaves the head of a queue leaves no entry of a connection that had none. -/
theorem holds_of_append {t : State} {released : List QueueEntry} {key : FlowKey}
    (queue : (s.lane l).queue = released ++ (t.lane l).queue) (free : s.holds l key = false) : t.holds l key = false := by
  rw [State.holds, queue, List.any_append, Bool.or_eq_false_iff] at free
  exact free.2

/-- The stages of a request start that leaves at once, after its report and the hand-on (R14, R101, R103, R104). -/
theorem exec_request (clocked : s.clocked = true) (tcp : s.outboundTcp f g) (tracks : (s.lane l).mode.tracking = true)
    (free : s.holds l g.key = false) (rst : g.rst = false) (payload : 0 < g.payloadLen)
    (request : (s.lookup l g).role = .request)
    (closed : ∀ r : FlowRecord, (s.reportSegment l g).findRecord l g.key = some r → r.requestOpen = false) {s0 : State}
    (handed : s0 = (s.reportSegment l g).handOn l s) (admitted : (s.lane l).mode = .active →
      (s0.lane l).queue = [] ∧ s0.passesAdmission l g.key (s.lookup l g).cost = true) :
    exec (.outboundArrival l f) s = .next ((s0.charge l g.key (s.lookup l g)).passOut l f) ∧
      ((s0.charge l g.key (s.lookup l g)).lane l).mode = (s.lane l).mode := by
  have mode : (s0.lane l).mode = (s.lane l).mode := by rw [handed, mode_handOn, (accounted_reportSegment s l g).mode]
  obtain ⟨released, -, queue⟩ := handedOn_handOn tracks (accounted_reportSegment s l g)
  rw [← handed] at queue
  have start := requestStart_eq_true (direction_of_segmentOf tcp.2.2) payload request rst
    ((holds_reportSegment g.key).trans free) closed
  refine ⟨?_, (accounted_charge s0 l g.key _).mode.trans mode⟩
  rw [exec_outbound_tcp clocked tcp, State.outboundSegment, if_pos tracks]
  dsimp only
  rw [start, ← handed, gateArrival_charges (holds_of_append queue free) (by rw [mode]; exact admitted)]

/-- Where the connection has no record the rewriter passes its segments by (R123). -/
theorem rewrite_of_absent (segment : segmentOf .outbound f = some g) (absent : s.findRecord l g.key = none) :
    s.rewrite l f = (f, s) := by
  have pass : rewriteOutcome (s.findRecord l g.key) g f = .pass := by
    rw [absent, rewriteOutcome]
    exact ite_self _
  rw [State.rewrite, segment]
  dsimp only
  rw [pass]

theorem length_rewrite (s : State) (l : LaneId) (f : Frame) : (s.rewrite l f).1.length = f.length := by
  obtain same | ⟨g, -, length, -⟩ := leavesAs_rewrite s l f
  · rw [same]
  · exact length

end

/-! ### The frame on its way out -/

/-- A lane that holds nothing, before and after a frame has gone through its rewriter: the frame joins the arbiter behind
every earlier one. -/
theorem framesOf_rewritten {s u : State} {l : LaneId} (a : (s.lane l).Accounted (u.lane l)) (event : s.LaneEvent l u)
    (empty : (s.lane l).queue = []) (f : Frame) :
    (((u.rewrite l f).2.makeReady l (u.rewrite l f).1).lane l).queue = [] ∧
      ((u.rewrite l f).2.makeReady l (u.rewrite l f).1).framesOf l = s.framesOf l ++ [(u.rewrite l f).1] := by
  have a' := a.trans (accounted_rewrite u l f)
  have left : (((u.rewrite l f).2.makeReady l (u.rewrite l f).1).lane l).queue = [] :=
    (makeReady_queue _ l _).1.trans (a'.queue.trans empty)
  refine ⟨left, ?_⟩
  rw [State.framesOf, State.framesOf, left, empty, outgoing_makeReady,
    outgoing_of_accounted a' (event.trans (laneEvent_rewrite u l f))]
  simp

/-! ### A request start without SYN on an ACTIVE lane -/

section

variable {s s0 s1 : State} {l : LaneId} {f : Frame} {g : Segment}
  (seen : s0 = s.modRecord l g.key FlowRecord.markSeen) (charged : s1 = s0.charge l g.key (s.lookup l g))

include seen

theorem findRecord_of_seen : s0.findRecord l g.key = (s.findRecord l g.key).map FlowRecord.markSeen := by
  rw [seen, findRecord_markSeen]
  simp

include charged

/-- With an empty queue and admission passed, it is charged and goes through the rewriter (R101, R105, R106). -/
theorem exec_request_of_empty (clocked : s.clocked = true) (tcp : s.outboundTcp f g) (active : (s.lane l).mode = .active)
    (empty : (s.lane l).queue = []) (syn : g.syn = false) (rst : g.rst = false) (payload : 0 < g.payloadLen)
    (request : (s.lookup l g).role = .request)
    (closed : ∀ r : FlowRecord, s.findRecord l g.key = some r → r.requestOpen = false)
    (passes : s.passesAdmission l g.key (s.lookup l g).cost = true) :
    exec (.outboundArrival l f) s = .next ((s1.rewrite l f).2.makeReady l (s1.rewrite l f).1) ∧
      (s1.lane l).mode = .active := by
  have report : s.reportSegment l g = s0 :=
    (reportSegment_plain (direction_of_segmentOf tcp.2.2) syn rst).trans seen.symm
  have stillClosed : ∀ r : FlowRecord, (s.reportSegment l g).findRecord l g.key = some r → r.requestOpen = false := by
    intro r found
    rw [report, findRecord_of_seen seen] at found
    obtain ⟨r0, found0, rfl⟩ := Option.map_eq_some_iff.mp found
    exact closed r0 found0
  have admitted : (s0.lane l).queue = [] ∧ s0.passesAdmission l g.key (s.lookup l g).cost = true := by
    rw [seen, passesAdmission_markSeen]
    exact ⟨empty, passes⟩
  obtain ⟨answer, mode⟩ := exec_request (s0 := s0) (l := l) clocked tcp (by rw [active]; rfl)
    (by rw [State.holds, empty]; rfl) rst payload request stillClosed (by rw [report, seen, handOn_markSeen])
    fun _ => admitted
  rw [← charged, active] at mode
  rw [← charged, passOut_of_enforcing (by rw [mode]; rfl)] at answer
  exact ⟨answer, mode⟩

/-- Its charge is an event of the lane that leaves its arbiter, its queue and the gate's counters. -/
theorem charge_of_seen : (s.lane l).Accounted (s1.lane l) ∧ s.LaneEvent l s1 ∧ s1.gateTally l = s.gateTally l := by
  rw [charged, seen]
  have marked := laneEvent_modRecord s l g.key FlowRecord.markSeen fun _ => rfl
  exact ⟨accounted_charge (s.modRecord l g.key FlowRecord.markSeen) l g.key _, marked.trans (laneEvent_charge _ l _ _),
    gateTally_charge _ l g.key _⟩

end

/-- Settles O14: the gate's stage charges the request and lets it pass; without SYN the report only marks its record
seen. -/
theorem admittedRequestIsChargedAndLeaves : Obligations.AdmittedRequestIsChargedAndLeaves := by
  unfold Obligations.AdmittedRequestIsChargedAndLeaves
  have refuses : ∀ {d : ClassDecision}, d.role = .request → d.role ≠ .exempt := fun h => by rw [h]; exact nofun
  refine ⟨fun l f g s s1 clocked tcp active empty syn rst payload request closed passes charged => ?_,
    fun l f g s s0 s1 d clocked tcp tracks free rst payload decision request closed handed admitted charged => ?_⟩
  · have maker := refuses request
    obtain ⟨s0, seen⟩ : ∃ s0 : State, s0 = s.modRecord l g.key FlowRecord.markSeen := ⟨_, rfl⟩
    have charged : s1 = s0.charge l g.key (s.lookup l g) := charged.trans (by rw [seen]; rfl)
    have still : s.findRecord l g.key = none → s0 = s := fun absent => by rw [seen, modRecord_of_none absent]
    obtain ⟨answer, mode⟩ :=
      exec_request_of_empty seen charged clocked tcp active empty syn rst payload request closed passes
    obtain ⟨accounts, event, tally⟩ := charge_of_seen seen charged
    obtain ⟨queue, frames⟩ := framesOf_rewritten accounts event empty f
    have keeps := (keepsRecords_rewrite s1 l f).trans (keepsRecords_makeReady _ l (s1.rewrite l f).1)
    rw [← gateTally_rewrite s1 l f, ← gateTally_makeReady] at tally
    refine ⟨_, answer, queue, (makeReady_queue _ l _).2.trans ((accounted_rewrite s1 l f).mode.trans mode), frames,
      length_rewrite s1 l f, (congrArg (·.1.2.2.1) tally :), fun r found => ?_, fun absent room => ?_,
      fun absent full => ?_⟩
    · obtain ⟨r1, found1, charge⟩ := findRecord_charge (d := s.lookup l g)
        ((findRecord_of_seen seen).trans (by rw [found]; rfl) : s0.findRecord l g.key = some r.markSeen)
      rw [← charged] at found1
      obtain ⟨r', found', same, seen', -⟩ := keeps.found g.key r1 found1
      have core : r'.core = FlowRecord.core { r with
          expected := min 16777215 (r.expected + (s.lookup l g).cost), requestOpen := true } :=
        (congrArg FlowRecord.core same :).trans (congrArg FlowRecord.core charge :)
      exact ⟨r', found', (congrArg FlowRecord.expected core :), (congrArg FlowRecord.requestOpen core :),
        seen' (congrArg FlowRecord.seen charge :), (congrArg FlowRecord.state core :),
        (congrArg FlowRecord.idleTicks core :), (congrArg FlowRecord.epochBytes core :)⟩
    · obtain ⟨r1, found1, made⟩ := findRecord_charge_of_room maker absent room
      rw [still absent] at charged
      rw [← charged] at found1
      obtain ⟨r', found', same, -⟩ := keeps.found g.key r1 found1
      exact ⟨r', found', fields_of_made ((congrArg FlowRecord.core same :).trans made)⟩
    · have counted : s1 = s.countLane l .untracked := by rw [charged, still absent, charge_of_full maker absent full]
      have untracked := keeps.untracked
      rw [rewrite_of_absent tcp.2.2 (by rw [counted]; exact absent)] at untracked ⊢
      rw [untracked, counted, State.lane_countLane_same]
      exact ⟨rfl, rfl⟩
  · subst decision
    have maker := refuses request
    obtain ⟨answer, mode⟩ := exec_request clocked tcp tracks free rst payload request closed handed admitted
    rw [← charged] at answer mode
    refine ⟨fun monitor => ?_, fun enforces => ?_, ?_, fun syn => ?_, fun r found => ?_, fun absent room => ?_,
      fun absent full => ?_⟩
    · rw [answer, passOut_of_monitor (mode.trans monitor)]
    · rw [answer, passOut_of_enforcing (mode ▸ enforcing_of_tracking tracks enforces)]
    · have tally : s1.gateTally l = s.gateTally l := by
        rw [charged, gateTally_charge, handed, gateTally_handOn, gateTally_reportSegment]
      exact (congrArg (·.1.2.2.1) tally :)
    · rw [handed, reportSegment_plain (direction_of_segmentOf tcp.2.2) syn rst]
      exact handOn_markSeen s l g.key
    · rw [charged]
      exact findRecord_charge found
    · obtain ⟨r', found', made⟩ := findRecord_charge_of_room maker absent room
      rw [charged]
      exact ⟨r', found', fields_of_made made⟩
    · rw [charged, charge_of_full maker absent full]
      rfl

end Sys2Proof.Machine

/-! SUPPORT. What one recompute of a lane writes, and how its grants divide the budget (R80 to R86). -/

namespace Sys2Proof.Machine

/-! ### What a recompute writes -/

/-- B as a recompute of the lane writes it (R80, R81). -/
def State.dueBudget (s : State) (l : LaneId) : Nat :=
  budgetOf (s.lane l).params (effectiveRate (s.lane l).params (s.lane l).rMeas)

/-- The grant that a recompute of the lane writes into a record (R83 to R86). -/
def State.dueGrant (s : State) (l : LaneId) (r : FlowRecord) : Nat :=
  if r.active then grantOf (s.lane l).params (s.dueBudget l) (s.n l) (s.w l) r.weight else 0

section

variable (s : State) (l : LaneId)

theorem dueBudget_le : s.dueBudget l ≤ Config.max24 := min_le_left _ _

theorem records_recompute :
    (s.recompute l).records l = (s.records l).map fun r => { r with grant := s.dueGrant l r } := by
  have pool : (s.recompute l).pool =
      s.pool.map fun r => if r.lane = l then { r with grant := s.dueGrant l r } else r := State.pool_latchOverload _ l
  rw [State.records, pool, List.filter_map, State.records]
  have lane : (fun r : FlowRecord => decide (r.lane = l)) ∘
      (fun r => if r.lane = l then { r with grant := s.dueGrant l r } else r) = fun r => decide (r.lane = l) := by
    funext r
    simp only [Function.comp_apply]
    split <;> rfl
  rw [lane]
  exact List.map_congr_left fun r hr => if_pos (by simpa using (List.mem_filter.mp hr).2)

theorem activeRecords_recompute :
    (s.recompute l).activeRecords l = (s.activeRecords l).map fun r => { r with grant := s.dueGrant l r } := by
  rw [State.activeRecords, records_recompute, List.filter_map]
  rfl

theorem n_recompute : (s.recompute l).n l = s.n l := n_of_ledger (ledger_recompute s l l)

theorem w_recompute : (s.recompute l).w l = s.w l := by
  rw [State.w, activeRecords_recompute, List.map_map]
  rfl

theorem budget_recompute : ((s.recompute l).lane l).budget = s.dueBudget l := by rw [recompute_lane]; rfl

theorem regime_recompute :
    ((s.recompute l).lane l).regime = regimeOf (s.lane l).params (s.dueBudget l) (s.n l) := by rw [recompute_lane]; rfl

/-- The grants of a lane are those of its active records (R86). -/
theorem grants_recompute : (((s.recompute l).records l).map (·.grant)).sum =
    (((s.activeRecords l).map (·.weight)).map
      (grantOf (s.lane l).params (s.dueBudget l) (s.n l) (s.w l))).sum := by
  rw [records_recompute, List.map_map, List.map_map, State.activeRecords]
  induction s.records l with
  | nil => rfl
  | cons r rest ih =>
    rw [List.map_cons, List.sum_cons, ih, List.filter_cons, Function.comp_apply, State.dueGrant]
    cases r.active with
    | true => rfl
    | false => exact Nat.zero_add _

/-- The grants of a recompute sum to at most B (R86). -/
theorem grants_recompute_le :
    (((s.recompute l).records l).map (·.grant)).sum ≤ ((s.recompute l).lane l).budget := by
  have h := sum_grants_le (s.lane l).params (s.dueBudget l) ((s.activeRecords l).map (·.weight))
  rw [List.length_map] at h
  rw [grants_recompute, budget_recompute]
  exact h

end

/-! ### Shares of a budget -/

/-- The regime of a lane (R83). -/
theorem regimeOf_eq_floor {p : LaneParams} {budget n : Nat} : regimeOf p budget n = .floor ↔ n * p.floorGrant ≤ budget := by
  unfold regimeOf
  split
  · rename_i h
    exact iff_of_true rfl h
  · rename_i h
    exact iff_of_false nofun h

theorem grantOf_floor {p : LaneParams} {budget n : Nat} (h : regimeOf p budget n = .floor) (w weight : Nat) :
    grantOf p budget n w weight = p.floorGrant + (budget - n * p.floorGrant) * weight / w := by
  unfold grantOf
  rw [h]

theorem grantOf_fallback {p : LaneParams} {budget n : Nat} (h : regimeOf p budget n = .fallback) (w weight : Nat) :
    grantOf p budget n w weight = budget * weight / w := by
  unfold grantOf
  rw [h]

/-- A greater weight gets no smaller grant, in either regime. -/
theorem grantOf_mono (p : LaneParams) (budget n w : Nat) {a b : Nat} (h : a ≤ b) :
    grantOf p budget n w a ≤ grantOf p budget n w b := by
  cases regime : regimeOf p budget n with
  | floor =>
    rw [grantOf_floor regime, grantOf_floor regime]
    exact Nat.add_le_add_left (Nat.div_le_div_right (Nat.mul_le_mul_left _ h)) _
  | fallback =>
    rw [grantOf_fallback regime, grantOf_fallback regime]
    exact Nat.div_le_div_right (Nat.mul_le_mul_left _ h)

/-- Flooring leaves of `total` less than one for each share. -/
theorem lt_sum_shares (total : Nat) {ws : List Nat} (pos : 0 < ws.sum) :
    total < (ws.map fun x => total * x / ws.sum).sum + ws.length := by
  obtain ⟨w, hw⟩ : ∃ w : Nat, w = ws.sum := ⟨_, rfl⟩
  rw [← hw] at pos ⊢
  have key : ∀ xs : List Nat, total * xs.sum + xs.length ≤ ((xs.map fun x => total * x / w).sum + xs.length) * w := by
    intro xs
    induction xs with
    | nil => simp
    | cons x rest ih =>
      have share : total * x + 1 ≤ (total * x / w + 1) * w := Nat.lt_mul_of_div_lt (Nat.lt_succ_self _) pos
      simp only [List.map_cons, List.sum_cons, List.length_cons]
      linarith
  have some' : 0 < ws.length := by
    cases ws with
    | nil => simp [hw] at pos
    | cons x rest => exact Nat.succ_pos _
  have all := key ws
  rw [← hw] at all
  exact Nat.lt_of_mul_lt_mul_right (lt_of_lt_of_le (Nat.lt_add_of_pos_right some') all)

/-- The grants leave of B less than one byte for each active record, in either regime (R84, R85). -/
theorem lt_sum_grants (p : LaneParams) (budget : Nat) {ws : List Nat} (pos : 0 < ws.sum) :
    budget < (ws.map (grantOf p budget ws.length ws.sum)).sum + ws.length := by
  cases regime : regimeOf p budget ws.length with
  | floor =>
    have covered := regimeOf_eq_floor.mp regime
    have shares := lt_sum_shares (budget - ws.length * p.floorGrant) pos
    rw [funext (grantOf_floor regime ws.sum), sum_floor_shares]
    omega
  | fallback =>
    rw [funext (grantOf_fallback regime ws.sum)]
    exact lt_sum_shares budget pos

/-- Settles O13: the grants are those of `grantOf` on the active weights, whose sum lies within n - 1 bytes of B. -/
theorem grantsDivideTheBudget : Obligations.GrantsDivideTheBudget := by
  unfold Obligations.GrantsDivideTheBudget
  rintro s t l p b n w rfl rfl rfl rfl rfl weights
  have records := activeRecords_recompute s l
  have hn : ((s.recompute l).activeRecords l).length = s.n l := n_recompute s l
  have hw : (((s.recompute l).activeRecords l).map (·.weight)).sum = s.w l := w_recompute s l
  have grant : ∀ r ∈ (s.recompute l).activeRecords l,
      r.grant = grantOf (s.lane l).params (s.dueBudget l) (s.n l) (s.w l) r.weight ∧ r.weight ≤ 15 := by
    intro r hr
    rw [records] at hr
    obtain ⟨r0, hr0, rfl⟩ := List.mem_map.mp hr
    exact ⟨if_pos (List.mem_filter.mp hr0).2, (weights r0 hr0).2⟩
  have small : ∀ r ∈ (s.recompute l).activeRecords l, ∀ share ≤ s.dueBudget l, share * r.weight < 2 ^ 28 := by
    intro r hr share le
    have within : share ≤ 16777215 := le.trans (dueBudget_le s l)
    exact lt_of_le_of_lt (Nat.mul_le_mul within (grant r hr).2) (by decide)
  have least : s.n l ≤ s.w l := by
    have h := List.length_le_sum_of_one_le ((s.activeRecords l).map (·.weight)) fun x hx => by
      obtain ⟨r, hr, rfl⟩ := List.mem_map.mp hx
      exact (weights r hr).1
    rwa [List.length_map] at h
  rw [hn, hw, budget_recompute, regime_recompute]
  refine ⟨regimeOf_eq_floor, least, fun r hr => ⟨fun regime => ?_, fun regime => ?_⟩, fun r hr idle => ?_,
    fun r hr r' hr' le => ?_, budget_recompute s l ▸ grants_recompute_le s l, fun some' => ?_⟩
  · rw [(grant r hr).1, grantOf_floor regime]
    exact ⟨rfl, Nat.le_add_right _ _, small r hr _ (Nat.sub_le _ _)⟩
  · rw [(grant r hr).1, grantOf_fallback regime]
    exact ⟨rfl, small r hr _ le_rfl⟩
  · rw [records_recompute] at hr
    obtain ⟨r0, -, rfl⟩ := List.mem_map.mp hr
    exact if_neg (by rw [show r0.active = false from idle]; exact Bool.false_ne_true)
  · rw [(grant r hr).1, (grant r' hr').1]
    exact grantOf_mono _ _ _ _ le
  · have pos : 0 < ((s.activeRecords l).map (·.weight)).sum := lt_of_lt_of_le some' least
    have left := lt_sum_grants (s.lane l).params (s.dueBudget l) pos
    rw [List.length_map] at left
    have left : s.dueBudget l < (((s.recompute l).records l).map (·.grant)).sum + s.n l := grants_recompute s l ▸ left
    omega

end Sys2Proof.Machine

/-! SUPPORT. What an event leaves of a lane's budget and grants: how each shared operation keeps the grants within the
budget, OVERLOAD latched, and the lane recomputed (R68, R80 to R88, R95, R178). -/

namespace Sys2Proof.Machine

/-! ### What the grant engine reads and writes -/

/-- The fields of a lane that a recompute reads or writes. -/
def LaneState.funds (x : LaneState) : LaneParams × Option Nat × Nat × Nat × Nat × Regime :=
  (x.params, x.rMeas, x.rEff, x.budget, x.nMax, x.regime)

/-- The fields of a record that a recompute reads or writes. -/
def FlowRecord.stake (r : FlowRecord) : Bool × Nat × Nat := (r.active, r.weight, r.grant)

/-- The grants of a lane lie within its budget, and OVERLOAD is latched while it holds (R86, R178). -/
structure State.Funded (s : State) (l : LaneId) : Prop where
  within : ((s.records l).map (·.grant)).sum ≤ (s.lane l).budget
  latched : s.overloaded l = true → s.latched (.overload l) = true

/-- A tracking lane is as a recompute would leave it. -/
def State.Settled (s : State) (l : LaneId) : Prop :=
  (s.lane l).mode.tracking = true → (s.lane l).RecomputedFor (s.records l) (s.n l) (s.w l)

/-- R_eff and B of a tracking lane are as a recompute would write them (R80, R81). -/
def State.Rated (s : State) (l : LaneId) : Prop :=
  (s.lane l).mode.tracking = true → (s.lane l).rEff = effectiveRate (s.lane l).params (s.lane l).rMeas ∧
    (s.lane l).budget = budgetOf (s.lane l).params (s.lane l).rEff

/-- What an event keeps of the grant engine's work on one lane. -/
structure State.KeepsFunds (l : LaneId) (s t : State) : Prop where
  canonical : s.PoolCanonical → t.PoolCanonical
  funded : s.Funded l → t.Funded l
  rated : s.Rated l → t.Rated l
  settled : s.PoolCanonical → s.Settled l → t.Settled l

theorem State.KeepsFunds.refl (l : LaneId) (s : State) : s.KeepsFunds l s := ⟨id, id, id, fun _ => id⟩

theorem State.KeepsFunds.trans {l : LaneId} {s t u : State} (h : s.KeepsFunds l t) (h' : t.KeepsFunds l u) :
    s.KeepsFunds l u :=
  ⟨h'.canonical ∘ h.canonical, h'.funded ∘ h.funded, h'.rated ∘ h.rated,
    fun wf settled => h'.settled (h.canonical wf) (h.settled wf settled)⟩

/-- An event that changes nothing that the grant engine reads or writes on a lane. -/
structure State.SameFunds (l : LaneId) (s t : State) : Prop where
  tracking : (t.lane l).mode.tracking = true → (s.lane l).mode.tracking = true
  funds : (t.lane l).funds = (s.lane l).funds
  stakes : (t.records l).map FlowRecord.stake = (s.records l).map FlowRecord.stake
  latch : s.latched (.overload l) = true → t.latched (.overload l) = true

section

variable {l k : LaneId} {s t : State}

/-! ### A recompute -/

theorem funded_recompute (s : State) (l : LaneId) : (s.recompute l).Funded l :=
  ⟨grants_recompute_le s l, State.latchOverload_latched _ l⟩

/-- A grant as R84 to R86 write it out. -/
theorem dueGrant_eq (s : State) (l : LaneId) (r : FlowRecord) : s.dueGrant l r =
    if r.active = false then 0
    else if s.n l * (s.lane l).params.floorGrant ≤ s.dueBudget l then
      (s.lane l).params.floorGrant + (s.dueBudget l - s.n l * (s.lane l).params.floorGrant) * r.weight / s.w l
    else s.dueBudget l * r.weight / s.w l := by
  unfold State.dueGrant
  cases r.active with
  | false => rfl
  | true =>
    unfold grantOf regimeOf
    by_cases covered : s.n l * (s.lane l).params.floorGrant ≤ s.dueBudget l
    · simp only [if_pos covered]; rfl
    · simp only [if_neg covered]; rfl

theorem recomputedFor_recompute (s : State) (l : LaneId) :
    ((s.recompute l).lane l).RecomputedFor ((s.recompute l).records l) ((s.recompute l).n l) ((s.recompute l).w l) := by
  rw [n_recompute, w_recompute, recompute_lane, records_recompute]
  refine ⟨effectiveRate_eq _ _, rfl, rfl, rfl, fun r hr => ?_⟩
  obtain ⟨r0, -, rfl⟩ := List.mem_map.mp hr
  exact dueGrant_eq s l r0

theorem rated_recompute (s : State) (l : LaneId) : (s.recompute l).Rated l := fun _ => by
  rw [recompute_lane]
  exact ⟨rfl, rfl⟩

theorem settled_recompute (s : State) (l : LaneId) : (s.recompute l).Settled l := fun _ => recomputedFor_recompute s l

/-! ### Events that leave the lane's funds -/

theorem sum_grants_of_stakes {xs ys : List FlowRecord} (h : ys.map FlowRecord.stake = xs.map FlowRecord.stake) :
    (ys.map (·.grant)).sum = (xs.map (·.grant)).sum := by
  have grants : ∀ zs : List FlowRecord, zs.map (·.grant) = (zs.map FlowRecord.stake).map (·.2.2) :=
    fun zs => by rw [List.map_map]; rfl
  rw [grants, grants, h]

theorem weights_of_stakes {xs ys : List FlowRecord} (h : ys.map FlowRecord.stake = xs.map FlowRecord.stake) :
    (ys.filter (·.active)).map (·.weight) = (xs.filter (·.active)).map (·.weight) := by
  have weights : ∀ zs : List FlowRecord,
      (zs.filter (·.active)).map (·.weight) = ((zs.map FlowRecord.stake).filter (·.1)).map (·.2.1) := fun zs => by
    rw [List.filter_map, List.map_map]; rfl
  rw [weights, weights, h]

/-- With the funds and the tracking mode as they stood, OVERLOAD's condition is not new. -/
theorem overloaded_of_funds (tracking : (t.lane l).mode.tracking = true → (s.lane l).mode.tracking = true)
    (funds : (t.lane l).funds = (s.lane l).funds) (loaded : t.overloaded l = true) : s.overloaded l = true := by
  simp only [LaneState.funds, Prod.mk.injEq] at funds
  obtain ⟨-, -, -, -, -, regime⟩ := funds
  simp only [State.overloaded, Bool.and_eq_true] at loaded ⊢
  exact ⟨tracking loaded.1, regime ▸ loaded.2⟩

theorem budget_of_funds {x y : LaneState} (h : y.funds = x.funds) : y.budget = x.budget :=
  (congrArg (·.2.2.2.1) h :)

/-- What the funds of a lane say of a recompute. -/
theorem recomputedFor_of_funds {x y : LaneState} (h : y.funds = x.funds) {records : List FlowRecord} {n w : Nat} :
    y.RecomputedFor records n w ↔ x.RecomputedFor records n w := by
  simp only [LaneState.funds, Prod.mk.injEq] at h
  obtain ⟨params, rMeas, rEff, budget, nMax, regime⟩ := h
  simp only [LaneState.RecomputedFor, params, rMeas, rEff, budget, nMax, regime]

/-- What the records of a lane say of a recompute lies in their stakes. -/
theorem recomputedFor_of_stakes {x : LaneState} {rs rs' : List FlowRecord} {n w : Nat}
    (h : rs'.map FlowRecord.stake = rs.map FlowRecord.stake) (due : x.RecomputedFor rs n w) : x.RecomputedFor rs' n w := by
  obtain ⟨rEff, budget, nMax, regime, grants⟩ := due
  refine ⟨rEff, budget, nMax, regime, fun r' hr' => ?_⟩
  obtain ⟨r, hr, same⟩ := List.mem_map.mp (h ▸ List.mem_map_of_mem hr')
  simp only [FlowRecord.stake, Prod.mk.injEq] at same
  obtain ⟨active, weight, grant⟩ := same
  rw [← active, ← weight, ← grant]
  exact grants r hr

/-- What the funds of a lane say of its rates. -/
theorem rated_of_funds (tracking : (t.lane l).mode.tracking = true → (s.lane l).mode.tracking = true)
    (funds : (t.lane l).funds = (s.lane l).funds) (rated : s.Rated l) : t.Rated l := by
  intro tracks
  have before := rated (tracking tracks)
  simp only [LaneState.funds, Prod.mk.injEq] at funds
  obtain ⟨params, rMeas, rEff, budget, -, -⟩ := funds
  rw [params, rMeas, rEff, budget]
  exact before

theorem State.SameFunds.keeps (h : s.SameFunds l t) (canonical : s.PoolCanonical → t.PoolCanonical) : s.KeepsFunds l t where
  canonical := canonical
  funded f := ⟨by rw [sum_grants_of_stakes h.stakes, budget_of_funds h.funds]; exact f.within,
    fun loaded => h.latch (f.latched (overloaded_of_funds h.tracking h.funds loaded))⟩
  rated := rated_of_funds h.tracking h.funds
  settled _ settled tracking := by
    have weights : (t.activeRecords l).map (·.weight) = (s.activeRecords l).map (·.weight) := weights_of_stakes h.stakes
    have n : t.n l = s.n l := by
      have len := congrArg List.length weights
      rwa [List.length_map, List.length_map] at len
    have w : t.w l = s.w l := congrArg List.sum weights
    rw [n, w]
    exact (recomputedFor_of_funds h.funds).mpr (recomputedFor_of_stakes h.stakes (settled (h.tracking tracking)))

/-- A change outside the pool that leaves the lane's funds. -/
theorem keepsFunds_of_lane (pool : t.pool = s.pool)
    (tracking : (t.lane l).mode.tracking = true → (s.lane l).mode.tracking = true)
    (funds : (t.lane l).funds = (s.lane l).funds)
    (latch : s.latched (.overload l) = true → t.latched (.overload l) = true) : s.KeepsFunds l t :=
  State.SameFunds.keeps ⟨tracking, funds, by rw [State.records, pool]; rfl, latch⟩
    (by rw [State.PoolCanonical, State.PoolCanonical, pool]; exact id)

/-- A change outside the lanes and the pool that clears no latch. -/
theorem keepsFunds_of_eq (lanes : t.lanes = s.lanes) (pool : t.pool = s.pool)
    (latch : ∀ e : Event, s.latched e = true → t.latched e = true) : s.KeepsFunds l t :=
  keepsFunds_of_lane pool (by rw [State.lane_congr lanes]; exact id) (by rw [State.lane_congr lanes]) (latch _)

/-- A change of one lane that leaves its mode and funds. -/
theorem keepsFunds_modLane {f : LaneState → LaneState}
    (tracking : (f (s.lane k)).mode.tracking = true → (s.lane k).mode.tracking = true)
    (funds : (f (s.lane k)).funds = (s.lane k).funds) : s.KeepsFunds l (s.modLane k f) := by
  by_cases e : l = k
  · subst e
    exact keepsFunds_of_lane rfl (by rw [State.lane_modLane_same]; exact tracking)
      (by rw [State.lane_modLane_same]; exact funds) id
  · have other : (s.modLane k f).lane l = s.lane l := (laneEvent_modLane s k f).lanes l e
    exact keepsFunds_of_lane rfl (by rw [other]; exact id) (by rw [other]) id

/-- An event of one lane, from what it does to that lane. -/
theorem State.LaneEvent.keepsFunds (event : s.LaneEvent k t) (own : s.KeepsFunds k t) : s.KeepsFunds l t := by
  by_cases e : l = k
  · exact e ▸ own
  · exact State.SameFunds.keeps ⟨by rw [event.lanes l e]; exact id, by rw [event.lanes l e], by rw [event.records l e], event.latch _⟩ own.canonical

end

end Sys2Proof.Machine

/-! SUPPORT. The flow table's part of an event, before its hand-on: no record gets a grant, so the grants stay within the
budget, and unless the active set changes every record has the grant that a recompute would write (R58, R68, R88). -/

namespace Sys2Proof.Machine

/-- What stands of a record until the next recompute. -/
def FlowRecord.place (r : FlowRecord) : Nat × LaneId × Nat := (r.slot, r.lane, r.grant)

/-- What the flow table's operations do to a pool, as the grant engine sees it: records keep their places or leave, and a
new record, in a free slot, has no grant (R57, R58). -/
structure PoolCarries (l : LaneId) (p p' : List FlowRecord) : Prop where
  canonical : poolWf p = true → poolWf p' = true
  grants : ((p'.filter fun r => r.lane = l).map (·.grant)).sum ≤ ((p.filter fun r => r.lane = l).map (·.grant)).sum
  carried : poolWf p = true → ∀ r' ∈ p',
    (∃ r ∈ p, r'.place = r.place) ∨ (r'.grant = 0 ∧ ∀ r ∈ p, r.slot ≠ r'.slot)

/-- The same with no record removed. -/
structure PoolGrows (l : LaneId) (p p' : List FlowRecord) : Prop extends PoolCarries l p p' where
  slots : ∀ r ∈ p, ∃ r' ∈ p', r'.slot = r.slot

/-- The flow table's part of an event on a lane: the lane's mode and funds stand, the pool is carried on. -/
structure State.TableWork (k : LaneId) (s t : State) : Prop where
  event : s.LaneEvent k t
  mode : (t.lane k).mode = (s.lane k).mode
  funds : (t.lane k).funds = (s.lane k).funds
  pool : PoolCarries k s.pool t.pool

/-- The same with no record removed. -/
structure State.TableGrowth (k : LaneId) (s t : State) : Prop extends s.TableWork k t where
  grows : PoolGrows k s.pool t.pool

section

variable {l k : LaneId} {s t u : State} {p p' p'' : List FlowRecord}

theorem PoolGrows.refl (l : LaneId) (p : List FlowRecord) : PoolGrows l p p where
  canonical := id
  grants := le_rfl
  carried _ r hr := .inl ⟨r, hr, rfl⟩
  slots r hr := ⟨r, hr, rfl⟩

theorem PoolGrows.trans (h : PoolGrows l p p') (h' : PoolGrows l p' p'') : PoolGrows l p p'' where
  canonical := h'.canonical ∘ h.canonical
  grants := h'.grants.trans h.grants
  carried wf r hr := by
    obtain ⟨r', hr', same⟩ | ⟨none', fresh⟩ := h'.carried (h.canonical wf) r hr
    · rw [FlowRecord.place, FlowRecord.place] at same
      obtain ⟨old, mem, same'⟩ | ⟨none', fresh⟩ := h.carried wf r' hr'
      · exact .inl ⟨old, mem, same.trans same'⟩
      · simp only [Prod.mk.injEq] at same
        obtain ⟨slot, -, grant⟩ := same
        exact .inr ⟨grant.trans none', fun old mem => slot ▸ fresh old mem⟩
    · refine .inr ⟨none', fun old mem => ?_⟩
      obtain ⟨r', hr', slot⟩ := h.slots old mem
      exact slot ▸ fresh r' hr'
  slots r hr := by
    obtain ⟨r', hr', slot⟩ := h.slots r hr
    obtain ⟨r'', hr'', slot'⟩ := h'.slots r' hr'
    exact ⟨r'', hr'', slot'.trans slot⟩

/-- Records that keep their places or leave. -/
theorem poolCarries_filterMap (l : LaneId) (p : List FlowRecord) {f : FlowRecord → Option FlowRecord}
    (place : ∀ r r' : FlowRecord, f r = some r' → r'.place = r.place) : PoolCarries l p (p.filterMap f) where
  canonical := poolSlotsFrom_filterMap f fun r r' e => (congrArg Prod.fst (place r r' e) :)
  grants := by
    induction p with
    | nil => exact le_rfl
    | cons r rest ih =>
      cases e : f r with
      | none =>
        rw [List.filterMap_cons_none e, List.filter_cons]
        split
        · exact ih.trans (Nat.le_add_left _ _)
        · exact ih
      | some r' =>
        have same := place r r' e
        simp only [FlowRecord.place, Prod.mk.injEq] at same
        obtain ⟨-, lane, grant⟩ := same
        rw [List.filterMap_cons_some e, List.filter_cons, List.filter_cons, lane]
        split
        · simp only [List.map_cons, List.sum_cons, grant]
          exact Nat.add_le_add_left ih _
        · exact ih
  carried _ r' hr' := by
    obtain ⟨r, hr, e⟩ := List.mem_filterMap.mp hr'
    exact .inl ⟨r, hr, place r r' e⟩

/-- Records that keep their places. -/
theorem poolGrows_map (l : LaneId) (p : List FlowRecord) {f : FlowRecord → FlowRecord}
    (place : ∀ r : FlowRecord, (f r).place = r.place) : PoolGrows l p (p.map f) where
  toPoolCarries := by
    rw [← List.filterMap_eq_map]
    exact poolCarries_filterMap l p fun r r' e => Option.some.inj e ▸ place r
  slots r hr := ⟨f r, List.mem_map_of_mem hr, congrArg Prod.fst (place r)⟩

theorem poolCarries_filter (l : LaneId) (p : List FlowRecord) (b : FlowRecord → Bool) :
    PoolCarries l p (p.filter b) := by
  rw [← List.filterMap_eq_filter]
  refine poolCarries_filterMap l p fun r r' e => ?_
  rw [(Option.guard_eq_some_iff.mp e).1]

theorem State.TableGrowth.refl (k : LaneId) (s : State) : s.TableGrowth k s :=
  ⟨⟨.refl k s, rfl, rfl, (PoolGrows.refl k s.pool).toPoolCarries⟩, .refl k s.pool⟩

theorem State.TableGrowth.trans (h : s.TableGrowth k t) (h' : t.TableGrowth k u) : s.TableGrowth k u :=
  ⟨⟨h.event.trans h'.event, h'.mode.trans h.mode, h'.funds.trans h.funds, (h.grows.trans h'.grows).toPoolCarries⟩,
    h.grows.trans h'.grows⟩

/-! ### The operations -/

theorem tableGrowth_modRecord (s : State) (k : LaneId) (key : FlowKey) {f : FlowRecord → FlowRecord}
    (place : ∀ r : FlowRecord, (f r).place = r.place) : s.TableGrowth k (s.modRecord k key f) := by
  have grows : PoolGrows k s.pool (s.modRecord k key f).pool := by
    refine poolGrows_map k s.pool fun r => ?_
    split
    · exact place r
    · rfl
  exact ⟨⟨laneEvent_modRecord s k key f fun r => (congrArg (·.2.1) (place r) :), rfl, rfl, grows.toPoolCarries⟩, grows⟩

theorem tableGrowth_createRecord (s : State) (k : LaneId) (key : FlowKey) (st : RecordState) (d : ClassDecision) :
    s.TableGrowth k (s.createRecord k key st d) := by
  have event := laneEvent_createRecord s k key st d
  have canonical := createRecord_keeps_poolWf s k key st d
  revert event canonical
  unfold State.createRecord
  split
  · exact fun _ _ => .refl k s
  · split
    · intro event canonical
      obtain ⟨x, hx⟩ : ∃ x : FlowRecord, x = newRecord (lowestFree 0 s.pool) k key st d := ⟨_, rfl⟩
      rw [← hx] at event canonical ⊢
      have none' : x.grant = 0 := by rw [hx]; rfl
      have slot : x.slot = lowestFree 0 s.pool := by rw [hx]; rfl
      have grows : PoolGrows k s.pool (insertRecord x s.pool) :=
        { canonical := canonical
          grants := by
            rw [(((insertRecord_perm x s.pool).filter _).map (·.grant)).sum_eq, List.filter_cons]
            split
            · rw [List.map_cons, List.sum_cons, none', Nat.zero_add]
            · exact le_rfl
          carried := fun wf r' hr' => by
            obtain rfl | mem := (mem_insertRecord x r' s.pool).mp hr'
            · exact .inr ⟨none', fun r hr => slot ▸ lowestFree_free wf r hr⟩
            · exact .inl ⟨r', mem, rfl⟩
          slots := fun r hr => ⟨r, (mem_insertRecord x r s.pool).mpr (.inr hr), rfl⟩ }
      exact ⟨⟨event, rfl, rfl, grows.toPoolCarries⟩, grows⟩
    · intro event _
      have lane : (s.countLane k .untracked).lane k = { s.lane k with counters := (s.lane k).counters.count .untracked } :=
        State.lane_modLane_same ..
      exact ⟨⟨event, by rw [lane], by rw [lane]; rfl, (PoolGrows.refl k s.pool).toPoolCarries⟩, .refl k s.pool⟩

theorem place_onSyn (r : FlowRecord) (g : Segment) (d : ClassDecision) : (r.onSyn g d).place = r.place := by
  unfold FlowRecord.onSyn FlowRecord.reuse
  split <;> (try split) <;> rfl

theorem tableGrowth_stepSyn (s : State) (k : LaneId) (g : Segment) (d : ClassDecision) :
    s.TableGrowth k (s.stepSyn k g d) := by
  unfold State.stepSyn
  split
  · exact .refl k s
  · split
    · exact tableGrowth_modRecord s k g.key fun r => place_onSyn r g d
    · split
      · exact .refl k s
      · exact tableGrowth_createRecord s k ..

theorem tableGrowth_stepClose (s : State) (k : LaneId) (g : Segment) : s.TableGrowth k (s.stepClose k g) := by
  unfold State.stepClose
  split
  · exact tableGrowth_modRecord s k g.key fun _ => rfl
  · exact .refl k s

theorem tableGrowth_stepPayload (s : State) (k : LaneId) (g : Segment) (d : ClassDecision) :
    s.TableGrowth k (s.stepPayload k g d) := by
  unfold State.stepPayload
  split
  · refine .trans ?_ (tableGrowth_modRecord _ k g.key fun _ => rfl)
    split
    · exact tableGrowth_createRecord s k ..
    · exact .refl k s
  · exact .refl k s

theorem tableGrowth_reportSegment (s : State) (k : LaneId) (g : Segment) : s.TableGrowth k (s.reportSegment k g) :=
  (((tableGrowth_stepSyn s k g _).trans (tableGrowth_stepClose _ k g)).trans (tableGrowth_stepPayload _ k g _)).trans
    (tableGrowth_modRecord _ k g.key fun _ => rfl)

theorem tableGrowth_chargeRecord (s : State) (k : LaneId) (key : FlowKey) (d : ClassDecision) :
    s.TableGrowth k (s.chargeRecord k key d) := by
  unfold State.chargeRecord
  refine .trans ?_ (tableGrowth_modRecord _ k key fun _ => rfl)
  split
  · exact tableGrowth_createRecord s k ..
  · exact .refl k s

theorem place_limits {r r' : FlowRecord} {p : LaneParams} (h : r.limits p = some r') : r'.place = r.place := by
  rw [FlowRecord.limits_eq r r' p h]
  split <;> rfl

theorem tableWork_ageLane (s : State) (k : LaneId) : s.TableWork k (s.ageLane k) := by
  refine ⟨laneEvent_ageLane s k, rfl, rfl, poolCarries_filterMap k s.pool fun r r' h => ?_⟩
  split at h
  · exact (place_limits h).trans rfl
  · exact Option.some.inj h ▸ rfl

theorem tableWork_removeLaneRecords (s : State) (k : LaneId) : s.TableWork k (s.removeLaneRecords k) :=
  ⟨laneEvent_removeLaneRecords s k, rfl, rfl, poolCarries_filter k s.pool _⟩

theorem tableWork_removeRecord (s : State) (k : LaneId) (key : FlowKey) : s.TableWork k (s.removeRecord k key) :=
  ⟨laneEvent_removeRecord s k key, rfl, rfl, poolCarries_filter k s.pool _⟩

/-! ### The hand-on to the grant engine -/

/-- With the active set as it was, a lane carried on is as a recompute would leave it (R88). -/
theorem settled_of_activeSet (carries : PoolCarries k s.pool t.pool) (mode : (t.lane k).mode = (s.lane k).mode)
    (funds : (t.lane k).funds = (s.lane k).funds) (same : t.activeSet k = s.activeSet k) (wf : s.PoolCanonical)
    (settled : s.Settled k) : t.Settled k := by
  intro tracking
  obtain ⟨rEff, budget, nMax, regime, grants⟩ := settled (mode ▸ tracking)
  have n : t.n k = s.n k := by
    have len := congrArg List.length same
    rwa [State.activeSet, State.activeSet, List.length_map, List.length_map] at len
  have w : t.w k = s.w k := by
    have sums := congrArg (fun xs => (xs.map Prod.snd).sum) same
    simp only [State.activeSet, List.map_map] at sums
    exact sums
  have mem : ∀ {u : State} {r : FlowRecord}, r ∈ u.records k ↔ r ∈ u.pool ∧ r.lane = k := fun {u r} => by
    rw [State.records, List.mem_filter, decide_eq_true_eq]
  have active : ∀ {u : State} {x : Nat × Nat},
      x ∈ u.activeSet k ↔ ∃ r ∈ u.records k, r.active = true ∧ (r.slot, r.weight) = x := fun {u x} => by
    simp only [State.activeSet, State.activeRecords, List.mem_map, List.mem_filter, and_assoc]
  rw [n, w]
  refine (recomputedFor_of_funds funds).mpr ⟨rEff, budget, nMax, regime, fun r' hr' => ?_⟩
  obtain ⟨mem', lane'⟩ := mem.mp hr'
  -- The record that stood active in the slot before, if the record is active now.
  have before : r'.active = true → ∃ r ∈ s.records k, r.active = true ∧ r.slot = r'.slot ∧ r.weight = r'.weight := by
    intro on
    have : (r'.slot, r'.weight) ∈ s.activeSet k := same ▸ active.mpr ⟨r', hr', on, rfl⟩
    obtain ⟨r, hr, on, e⟩ := active.mp this
    exact ⟨r, hr, on, (Prod.mk.inj e).1, (Prod.mk.inj e).2⟩
  obtain ⟨r, hr, place⟩ | ⟨none', fresh⟩ := carries.carried wf r' mem'
  · simp only [FlowRecord.place, Prod.mk.injEq] at place
    obtain ⟨slot, lane, grant⟩ := place
    have hr : r ∈ s.records k := mem.mpr ⟨hr, lane ▸ lane'⟩
    cases on : r'.active with
    | true =>
      obtain ⟨r0, hr0, on0, slot0, weight0⟩ := before on
      obtain rfl : r0 = r := eq_of_slot wf (mem.mp hr0).1 (mem.mp hr).1 (slot0.trans slot)
      rw [grant, ← weight0, ← on0]
      exact grants r0 hr0
    | false =>
      have off : r.active = false := by
        by_contra on0
        have : (r.slot, r.weight) ∈ t.activeSet k := same ▸ active.mpr ⟨r, hr, by simpa using on0, rfl⟩
        obtain ⟨r1, hr1, on1, e⟩ := active.mp this
        obtain rfl : r1 = r' := eq_of_slot (carries.canonical wf) (mem.mp hr1).1 mem' ((Prod.mk.inj e).1.trans slot.symm)
        exact absurd on (by rw [on1]; exact Bool.noConfusion)
      rw [grant, grants r hr, off]
      rfl
  · cases on : r'.active with
    | true =>
      obtain ⟨r0, hr0, -, slot0, -⟩ := before on
      exact absurd slot0 (fresh r0 (mem.mp hr0).1)
    | false => exact none'

theorem funded_of_carries (carries : PoolCarries k s.pool t.pool) (mode : (t.lane k).mode = (s.lane k).mode)
    (funds : (t.lane k).funds = (s.lane k).funds) (latch : ∀ e : Event, s.latched e = true → t.latched e = true)
    (funded : s.Funded k) : t.Funded k where
  within := by rw [budget_of_funds funds]; exact carries.grants.trans funded.within
  latched loaded := latch _ (funded.latched (overloaded_of_funds (mode ▸ id) funds loaded))

/-- A pool carried on, with the hand-on to the grant engine, on the lane of the event (R68, R88). -/
theorem keepsFunds_afterActiveSet (carries : PoolCarries k s.pool t.pool) (mode : (t.lane k).mode = (s.lane k).mode)
    (funds : (t.lane k).funds = (s.lane k).funds) (latch : ∀ e : Event, s.latched e = true → t.latched e = true) :
    s.KeepsFunds k (t.afterActiveSet k s) := by
  unfold State.afterActiveSet
  split
  · exact ⟨fun wf => recompute_keeps_poolWf t k (carries.canonical wf), fun _ => funded_recompute t k,
      fun _ => rated_recompute t k, fun _ _ => settled_recompute t k⟩
  · rename_i still
    refine ⟨carries.canonical, funded_of_carries carries mode funds latch, rated_of_funds (mode ▸ id) funds, fun wf settled tracking => ?_⟩
    have same : t.activeSet k = s.activeSet k := by
      by_contra ne
      exact still (by rw [tracking, decide_eq_true ne]; rfl)
    exact settled_of_activeSet carries mode funds same wf settled tracking

/-- The flow table's part of an event with its hand-on to the grant engine (R68, R88). -/
theorem State.TableWork.keepsFunds (h : s.TableWork k t) : s.KeepsFunds l (t.afterActiveSet k s) :=
  (h.event.trans (laneEvent_afterActiveSet t k s)).keepsFunds
    (keepsFunds_afterActiveSet h.pool h.mode h.funds h.event.latch)

/-- An event of a lane that ends with a recompute of it. -/
theorem keepsFunds_recompute (event : s.LaneEvent k t) (canonical : s.PoolCanonical → t.PoolCanonical) :
    s.KeepsFunds l (t.recompute k) :=
  (event.trans (laneEvent_recompute t k)).keepsFunds
    ⟨fun wf => recompute_keeps_poolWf t k (canonical wf), fun _ => funded_recompute t k, fun _ => rated_recompute t k,
      fun _ _ => settled_recompute t k⟩

end

end Sys2Proof.Machine

/-! SUPPORT. The gate, the drain and the probe keep the grant engine's work: each moves frames and hands charges on (R107). -/

namespace Sys2Proof.Machine

section

variable {l k : LaneId} {s t u : State}

theorem funds_startReady (x : LaneState) : x.startReady.funds = x.funds := by
  unfold LaneState.startReady
  split <;> rfl

theorem keepsFunds_countLane (s : State) (k : LaneId) (c : LaneCounter) : s.KeepsFunds l (s.countLane k c) :=
  keepsFunds_modLane id rfl

theorem keepsFunds_latchEvent (s : State) (e : Event) : s.KeepsFunds l (s.latchEvent e) :=
  keepsFunds_of_eq rfl rfl fun e' h => s.latched_latchEvent e e' h

theorem keepsFunds_sendStation (s : State) (k : LaneId) (f : Frame) : s.KeepsFunds l (s.sendStation k f) :=
  keepsFunds_of_eq rfl rfl fun _ => id

theorem keepsFunds_makeReady (s : State) (k : LaneId) (f : Frame) : s.KeepsFunds l (s.makeReady k f) :=
  keepsFunds_modLane (by rw [startReady_mode]; exact id) (funds_startReady _)

theorem keepsFunds_setEdge (s : State) (k : LaneId) (key : FlowKey) (edge : SeqNum) :
    s.KeepsFunds l (s.setEdge k key edge) := by
  refine (laneEvent_setEdge s k key edge).keepsFunds (State.SameFunds.keeps ⟨id, rfl, ?_, id⟩
    (modRecord_keeps_poolWf s k key _ fun _ => rfl))
  rw [State.setEdge, State.modRecord, State.records, State.records, List.filter_map, List.map_map]
  have lane : (fun r : FlowRecord => decide (r.lane = k)) ∘
      (fun r => if r.lane = k ∧ r.key = key then { r with lastEdge := some edge } else r) =
      fun r => decide (r.lane = k) := by
    funext r
    simp only [Function.comp_apply]
    split <;> rfl
  rw [lane]
  refine List.map_congr_left fun r _ => ?_
  simp only [Function.comp_apply]
  split <;> rfl

theorem keepsFunds_rewrite (s : State) (k : LaneId) (f : Frame) : s.KeepsFunds l (s.rewrite k f).2 := by
  unfold State.rewrite
  split
  · exact .refl l s
  · split
    · exact .refl l s
    · exact keepsFunds_countLane s k _
    · exact keepsFunds_setEdge s k _ _
    · exact (keepsFunds_setEdge s k _ _).trans (keepsFunds_countLane _ k _)

theorem keepsFunds_passOut (s : State) (k : LaneId) (f : Frame) : s.KeepsFunds l (s.passOut k f) := by
  unfold State.passOut
  split
  · exact (keepsFunds_rewrite s k f).trans (keepsFunds_makeReady _ k _)
  · exact keepsFunds_makeReady s k f

theorem keepsFunds_charge (s : State) (k : LaneId) (key : FlowKey) (d : ClassDecision) :
    s.KeepsFunds l (s.charge k key d) := (tableGrowth_chargeRecord s k key d).toTableWork.keepsFunds

theorem keepsFunds_account (s : State) (k : LaneId) (e : QueueEntry) : s.KeepsFunds l (s.account k e) := by
  unfold State.account
  split
  · exact keepsFunds_charge s k _ _
  · exact .refl l s

/-! ### Releases -/

theorem keepsFunds_releaseHead (s : State) (k : LaneId) : s.KeepsFunds l (s.releaseHead k) := by
  unfold State.releaseHead
  split
  · exact .refl l s
  · refine .trans (.trans ?_ (keepsFunds_account _ k _)) (keepsFunds_passOut _ k _)
    exact keepsFunds_modLane id rfl

theorem keepsFunds_releaseFirst (n : Nat) (k : LaneId) : ∀ s : State, s.KeepsFunds l (State.releaseFirst n k s) := by
  induction n with
  | zero => exact .refl l
  | succ n ih => exact fun s => (keepsFunds_releaseHead s k).trans (ih _)

theorem keepsFunds_releaseAll (s : State) (k : LaneId) : s.KeepsFunds l (s.releaseAll k) := keepsFunds_releaseFirst _ k s

theorem keepsFunds_reevaluateLoop (force : Bool) (n : Nat) (k : LaneId) :
    ∀ s : State, s.KeepsFunds l (State.reevaluateLoop force n k s) := by
  induction n with
  | zero => exact .refl l
  | succ n ih =>
    intro s
    have release := (keepsFunds_releaseHead (l := l) s k).trans (ih _)
    unfold State.reevaluateLoop
    split
    · exact .refl l s
    · split
      · exact release
      · split
        · exact ((keepsFunds_releaseHead s k).trans (keepsFunds_countLane _ k _)).trans (ih _)
        · split
          · exact release
          · exact .refl l s

theorem keepsFunds_reevaluate (s : State) (k : LaneId) : s.KeepsFunds l (s.reevaluate k) := by
  unfold State.reevaluate
  split
  · exact keepsFunds_reevaluateLoop _ _ k s
  · exact .refl l s

theorem keepsFunds_gateTickLane (k : LaneId) (s : State) : s.KeepsFunds l (State.gateTickLane k s) := by
  have ticked : s.KeepsFunds l (s.modLane k fun x => { x with queue := x.queue.map QueueEntry.tick }) :=
    keepsFunds_modLane id rfl
  unfold State.gateTickLane
  split
  · dsimp only
    split
    · exact ticked.trans (keepsFunds_reevaluateLoop _ _ k _)
    · exact ticked
  · exact .refl l s

/-! ### Hand-ons -/

/-- The flow table's part of an event with all of its hand-on (R68). -/
theorem State.TableWork.keepsFunds_handOn (h : s.TableWork k t) : s.KeepsFunds l (t.handOn k s) := by
  unfold State.handOn
  dsimp only
  split
  · exact h.keepsFunds.trans (keepsFunds_reevaluate _ k)
  · exact h.keepsFunds

/-- An event of a lane whose end is a recompute of it, with its hand-on (R91). -/
theorem keepsFunds_recomputeHandOn (event : s.LaneEvent k t) (canonical : s.PoolCanonical → t.PoolCanonical) :
    s.KeepsFunds l (t.recomputeHandOn k) := by
  unfold State.recomputeHandOn
  dsimp only
  split
  · exact (keepsFunds_recompute event canonical).trans (keepsFunds_reevaluate _ k)
  · exact keepsFunds_recompute event canonical

theorem keepsFunds_flowTickLane (k : LaneId) (s : State) : s.KeepsFunds l (State.flowTickLane k s) := by
  unfold State.flowTickLane
  split
  · exact (tableWork_ageLane s k).keepsFunds_handOn
  · exact .refl l s

theorem keepsFunds_forEachLane {f : LaneId → State → State} (turn : ∀ (k : LaneId) (s : State), s.KeepsFunds l (f k s))
    (s : State) : s.KeepsFunds l (forEachLane f s) :=
  forEachLane_keeps (P := s.KeepsFunds l) (fun k t h => h.trans (turn k t)) (.refl l s)

/-! ### The drain and the gate's arrivals -/

theorem keepsFunds_finishDrain (s : State) (k : LaneId) : s.KeepsFunds l (s.finishDrain k) := by
  unfold State.finishDrain
  split
  · rename_i ends
    exact keepsFunds_modLane (fun _ => by rw [ends.1]; rfl) rfl
  · exact .refl l s

theorem keepsFunds_drainLoop (n : Nat) (k : LaneId) : ∀ s : State, s.KeepsFunds l (State.drainLoop n k s) := by
  induction n with
  | zero => exact .refl l
  | succ n ih =>
    intro s
    unfold State.drainLoop
    split
    · exact ((keepsFunds_releaseHead s k).trans (keepsFunds_finishDrain _ k)).trans (ih _)
    · exact .refl l s

theorem keepsFunds_drain (s : State) (k : LaneId) : s.KeepsFunds l (s.drain k) := keepsFunds_drainLoop _ k s

theorem keepsFunds_hold (s : State) (k : LaneId) (kind : EntryKind) (key : FlowKey) (f : Frame) :
    s.KeepsFunds l (s.hold k kind key f) := by
  unfold State.hold
  split
  · have appended : s.KeepsFunds l (s.modLane k fun x => { x with queue := x.queue ++ [⟨kind, key, f, 0⟩] }) :=
      keepsFunds_modLane id rfl
    exact appended.trans (keepsFunds_countLane _ k _)
  · have released := (keepsFunds_releaseAll (l := l) s k).trans (keepsFunds_account _ k ⟨kind, key, f, 0⟩)
    have passed := (released.trans (keepsFunds_passOut _ k f)).trans (keepsFunds_countLane _ k .flushes)
    exact (passed.trans (keepsFunds_latchEvent _ (.gateFlush k))).trans (keepsFunds_finishDrain _ k)

theorem keepsFunds_gateArrival (s : State) (k : LaneId) (g : Segment) (f : Frame) (start : Bool) (d : ClassDecision) :
    s.KeepsFunds l (s.gateArrival k g f start d) := by
  unfold State.gateArrival
  split
  · exact keepsFunds_hold s k _ _ f
  · split
    · split
      · exact keepsFunds_hold s k _ _ f
      · exact (keepsFunds_charge s k _ d).trans (keepsFunds_passOut _ k f)
    · exact keepsFunds_passOut s k f

theorem keepsFunds_outboundSegment (s : State) (k : LaneId) (g : Segment) (f : Frame) :
    s.KeepsFunds l (s.outboundSegment k g f) := by
  unfold State.outboundSegment
  split
  · exact (tableGrowth_reportSegment s k g).toTableWork.keepsFunds_handOn.trans (keepsFunds_gateArrival _ k g f _ _)
  · exact keepsFunds_makeReady s k f

theorem keepsFunds_outboundFrame (s : State) (k : LaneId) (f : Frame) : s.KeepsFunds l (s.outboundFrame k f) := by
  unfold State.outboundFrame
  split
  · exact keepsFunds_countLane s k _
  · split
    · exact (keepsFunds_makeReady s k f).trans (keepsFunds_countLane _ k _)
    · split
      · exact keepsFunds_countLane s k _
      · split
        · exact (keepsFunds_makeReady s k f).trans (keepsFunds_countLane _ k _)
        · exact keepsFunds_outboundSegment s k _ f

/-! ### The probe and the mode controller -/

theorem State.ProbeOnly.keepsFunds (h : s.ProbeOnly t) : s.KeepsFunds l t := by
  obtain ⟨p, rfl⟩ := h
  exact keepsFunds_of_eq rfl rfl fun _ => id

theorem keepsFunds_completeProbe (s : State) (r : ProbeRequest) : s.KeepsFunds l (s.completeProbe r) := by
  unfold State.completeProbe
  refine .trans (.trans ?_ (keepsFunds_latchEvent _ .probe))
    (State.ProbeOnly.keepsFunds (State.ProbeOnly.trans ⟨_, rfl⟩ (probeOnly_grantProbe _)))
  split
  · exact keepsFunds_recomputeHandOn (laneEvent_modLane s r.lane _) id
  · exact keepsFunds_countLane s r.lane _

theorem keepsFunds_engineTick (s : State) : s.KeepsFunds l s.engineTick := by
  have probe : ∀ p : Probe, s.KeepsFunds l { s with probe := p } := fun p => State.ProbeOnly.keepsFunds ⟨p, rfl⟩
  unfold State.engineTick
  split
  · exact .refl l s
  · exact probe _
  · unfold State.windowTick
    dsimp only
    split
    · exact (probe _).trans (keepsFunds_completeProbe _ _)
    · exact probe _

theorem keepsFunds_intervalTick (k : LaneId) (s : State) : s.KeepsFunds l (State.intervalTick k s) := by
  have counted : ∀ n : Nat, s.KeepsFunds l (s.modLane k fun x => { x with intervalCount := n }) :=
    fun n => keepsFunds_modLane id rfl
  unfold State.intervalTick
  split
  · split
    · exact (counted 0).trans (probeOnly_requestProbe _ k _).keepsFunds
    · exact counted ((s.lane k).intervalCount + 1)
  · exact .refl l s

theorem keepsFunds_setMode {m : Mode} {d : DrainTarget} (h : m.tracking = true → (s.lane k).mode.tracking = true) :
    s.KeepsFunds l (s.setMode k m d) := keepsFunds_modLane h rfl

theorem keepsFunds_atRest {m : Mode} {d : DrainTarget} (h : m.tracking = false) : s.KeepsFunds l (s.setMode k m d) :=
  keepsFunds_setMode fun tracks => absurd tracks (by rw [h]; exact Bool.false_ne_true)

theorem keepsFunds_enterMonitor (s : State) (k : LaneId) : s.KeepsFunds l (s.enterMonitor k) :=
  keepsFunds_recompute ((laneEvent_removeLaneRecords s k).trans (laneEvent_modLane _ k _))
    (removeLaneRecords_keeps_poolWf s k)

theorem keepsFunds_enterActive (h : (s.lane k).mode.tracking = true) : s.KeepsFunds l (s.enterActive k) :=
  .trans (keepsFunds_modLane (fun _ => h) rfl) (probeOnly_requestProbe _ k _).keepsFunds

theorem keepsFunds_enterBypass (s : State) (k : LaneId) : s.KeepsFunds l (s.enterBypass k) :=
  .trans (keepsFunds_atRest rfl) (probeOnly_leaveProbe _ k).keepsFunds

theorem keepsFunds_enterDraining (h : (s.lane k).mode.tracking = true) (d : DrainTarget) :
    s.KeepsFunds l (s.enterDraining k d) :=
  .trans (.trans (keepsFunds_setMode fun _ => h) (probeOnly_leaveProbe _ k).keepsFunds) (keepsFunds_drain _ k)

theorem keepsFunds_returnToActive (h : (s.lane k).mode.tracking = true) : s.KeepsFunds l (s.returnToActive k) := by
  refine .trans (.trans (keepsFunds_setMode fun _ => h) (keepsFunds_reevaluate _ k)) (keepsFunds_enterActive ?_)
  rw [((stays_reevaluate (l := k) (entries_any (s.setMode k .active .none))).modes k).1, State.setMode,
    State.lane_modLane_same]
  rfl

theorem keepsFunds_changeMode {req : RequestedMode} (h : s.changeMode k req = some t) : s.KeepsFunds l t := by
  unfold State.changeMode at h
  split at h
  · cases h; exact .refl l s
  · cases h; exact keepsFunds_enterMonitor s k
  · cases h
  · cases h; exact keepsFunds_enterBypass s k
  · cases h; exact .refl l s
  · rename_i mode
    split at h
    · cases h; exact keepsFunds_enterActive (by rw [mode]; rfl)
    · cases h
  · rename_i mode
    split at h
    · cases h; exact keepsFunds_enterBypass s k
    · cases h; exact keepsFunds_enterDraining (by rw [mode]; rfl) _
  · rename_i mode
    split at h
    · cases h; exact keepsFunds_setMode fun _ => by rw [mode]; rfl
    · cases h; exact keepsFunds_enterDraining (by rw [mode]; rfl) _
  · cases h; exact .refl l s
  · rename_i mode
    cases h; exact keepsFunds_setMode fun _ => by rw [mode]; rfl
  · rename_i mode
    cases h; exact keepsFunds_setMode fun _ => by rw [mode]; rfl
  · rename_i mode
    cases h; exact keepsFunds_returnToActive (by rw [mode]; rfl)
  · cases h; exact keepsFunds_atRest rfl
  · cases h; exact keepsFunds_enterMonitor s k
  · cases h

theorem keepsFunds_releaseLane (s : State) (k : LaneId) : s.KeepsFunds l (s.releaseLane k) := by
  unfold State.releaseLane
  split
  · exact (keepsFunds_releaseAll s k).trans (keepsFunds_finishDrain _ k)
  · exact .refl l s

theorem keepsFunds_expireLane (k : LaneId) (s : State) : s.KeepsFunds l (State.expireLane k s) := by
  have released : s.KeepsFunds l (s.failsafeRelease k) := by
    have emptied : s.KeepsFunds l (s.modLane k fun x => { x with queue := [] }) := keepsFunds_modLane id rfl
    exact emptied.trans (List.foldlRecOn (motive := State.KeepsFunds l _) _ _ (.refl l _)
      fun u h e _ => h.trans (keepsFunds_makeReady u k e.frame))
  unfold State.expireLane
  split
  · exact (released.trans (keepsFunds_atRest rfl)).trans (probeOnly_leaveProbe _ k).keepsFunds
  · exact .refl l s

theorem keepsFunds_expire (s : State) : s.KeepsFunds l s.expire := by
  refine .trans (.trans (t := { s with keepalive := { s.keepalive with state := .expired } }) ?_
    (keepsFunds_latchEvent _ .wdog)) (keepsFunds_forEachLane keepsFunds_expireLane _)
  exact keepsFunds_of_eq rfl rfl fun _ => id

theorem keepsFunds_monitorTick (s : State) : s.KeepsFunds l s.monitorTick := by
  have monitor : ∀ m : Keepalive, s.KeepsFunds l { s with keepalive := m } := fun m => keepsFunds_of_eq rfl rfl fun _ => id
  unfold State.monitorTick
  split
  · dsimp only
    split
    · exact (monitor _).trans (keepsFunds_expire _)
    · exact monitor _
  · exact .refl l s

end

end Sys2Proof.Machine

/-! SUPPORT. Every step keeps the grant engine's work: the events of the whole part, the commands and the pins. -/

namespace Sys2Proof.Machine

section

variable {l k : LaneId} {s t : State}

/-! ### Limits of one record -/

theorem keepsFunds_handOn (s u : State) (k : LaneId) : s.KeepsFunds l (s.handOn k u) := by
  have engine : s.KeepsFunds l (s.afterActiveSet k u) := by
    unfold State.afterActiveSet
    split
    · exact keepsFunds_recompute (.refl k s) id
    · exact .refl l s
  unfold State.handOn
  dsimp only
  split
  · exact engine.trans (keepsFunds_reevaluate _ k)
  · exact engine

theorem keepsFunds_limitEvent {slot : Nat} {r : FlowRecord} (silent : s.silentRecord slot = some r) :
    s.KeepsFunds l (s.limitEvent slot r) := by
  obtain ⟨mem, rfl, -⟩ := silentRecord_spec silent
  have carries : ∀ l : LaneId, PoolCarries l s.pool (s.limitSlot r.slot).pool := fun l => by
    refine poolCarries_filterMap l s.pool fun x x' h => ?_
    split at h
    · exact place_limits h
    · exact Option.some.inj h ▸ rfl
  unfold State.limitEvent
  by_cases e : l = r.lane
  · subst e
    unfold State.handOn
    dsimp only
    split
    · exact (keepsFunds_afterActiveSet (carries _) rfl rfl fun _ => id).trans (keepsFunds_reevaluate _ _)
    · exact keepsFunds_afterActiveSet (carries _) rfl rfl fun _ => id
  · refine .trans ⟨(carries l).canonical, funded_of_carries (carries l) rfl rfl fun _ => id, id, fun wf settled => ?_⟩
      (keepsFunds_handOn _ s r.lane)
    have same := records_limitSlot wf mem e
    intro tracking
    rw [State.n, State.w, State.activeRecords, same]
    exact settled tracking

/-! ### A staged timebase -/

theorem settled_rebaseLane (s : State) (l : LaneId) (wf : s.PoolCanonical) : (State.rebaseLane l s).Settled l := by
  unfold State.rebaseLane
  split
  · unfold State.recomputeHandOn
    dsimp only
    split
    · exact (keepsFunds_reevaluate (s.recompute l) l).settled (recompute_keeps_poolWf s l wf) (settled_recompute s l)
    · exact settled_recompute s l
  · rename_i idle
    exact fun tracking => absurd tracking idle

theorem rated_recomputeHandOn (s : State) (l : LaneId) : (s.recomputeHandOn l).Rated l := by
  unfold State.recomputeHandOn
  dsimp only
  split
  · exact (keepsFunds_reevaluate (s.recompute l) l).rated (rated_recompute s l)
  · exact rated_recompute s l

theorem rated_rebaseLane (s : State) (l : LaneId) : (State.rebaseLane l s).Rated l := by
  unfold State.rebaseLane
  split
  · exact rated_recomputeHandOn s l
  · rename_i idle
    exact fun tracking => absurd tracking idle

theorem keepsFunds_rebaseLane (k : LaneId) (s : State) : s.KeepsFunds l (State.rebaseLane k s) := by
  unfold State.rebaseLane
  split
  · exact keepsFunds_recomputeHandOn (.refl k s) id
  · exact .refl l s

/-- Every tracking lane is recomputed once its rate is forgotten (R94). -/
theorem keepsFunds_rebase (s : State) : s.KeepsFunds l (forEachLane State.rebaseLane s.forgetRates) := by
  obtain ⟨u, turn, before, after⟩ := laneTurn_forEachLane_keeping (Q := State.KeepsFunds l) (l := l)
    laneEvent_rebaseLane (.refl l) State.KeepsFunds.trans (fun k s _ => keepsFunds_rebaseLane k s) s.forgetRates
  have forgets : s.forgetRates.lane l = { s.lane l with rMeas := none } := lane_forEachLane_modLane ..
  obtain ⟨pool, latch⟩ : s.forgetRates.pool = s.pool ∧ s.forgetRates.latch = s.latch :=
    forEachLane_keeps (P := fun t => t.pool = s.pool ∧ t.latch = s.latch) (fun _ _ h => h) ⟨rfl, rfl⟩
  have whole := (before.trans (keepsFunds_rebaseLane l u)).trans after
  refine ⟨fun wf => whole.canonical (by rw [State.PoolCanonical, pool]; exact wf), fun funded => whole.funded ⟨?_, ?_⟩,
    fun _ => after.rated (rated_rebaseLane u l), fun wf _ => after.settled ?_ (settled_rebaseLane u l ?_)⟩
  · rw [forgets, State.records, pool]
    exact funded.within
  · rw [State.overloaded, forgets, State.latched, latch]
    exact funded.latched
  · exact (before.trans (keepsFunds_rebaseLane l u)).canonical (by rw [State.PoolCanonical, pool]; exact wf)
  · exact before.canonical (by rw [State.PoolCanonical, pool]; exact wf)

theorem keepsFunds_timer (s : State) (x : Timer) : s.KeepsFunds l { s with timer := x } :=
  keepsFunds_of_eq rfl rfl fun _ => id

theorem keepsFunds_timerTick (s : State) : s.KeepsFunds l s.timerTick := by
  unfold State.timerTick State.takeStaged
  split
  · exact keepsFunds_timer s _
  · exact (((keepsFunds_timer s _).trans (keepsFunds_timer _ _)).trans (keepsFunds_rebase _)).trans
      (probeOnly_abandonProbe _).keepsFunds

/-! ### The control engine, the arbiter and the pins -/

/-- A change of the merge arbiters and of the blocks outside the lanes that clears no latch. -/
theorem State.ArbiterOnly.keepsFunds (h : s.ArbiterOnly t) (latch : ∀ e : Event, s.latched e = true → t.latched e = true) :
    s.KeepsFunds l t := by
  obtain ⟨o, r, p, lane⟩ := h.lanes l
  exact keepsFunds_of_lane h.pool (by rw [lane]; exact id) (by rw [lane]; rfl) (latch _)

theorem keepsFunds_receiveControl (s : State) (k : LaneId) (f : Frame) : s.KeepsFunds l (s.receiveControl k f) :=
  (arbiterOnly_receiveControl s k f).keepsFunds (portEvent_receiveControl s k f).latch

theorem latch_takeHandOver (s : State) : s.takeHandOver.latch = s.latch :=
  (congrArg State.latch (takeHandOver_rest s) :)

theorem keepsFunds_takeHandOver (s : State) : s.KeepsFunds l s.takeHandOver :=
  (arbiterOnly_takeHandOver s).keepsFunds fun e on => by rw [State.latched, latch_takeHandOver]; exact on

theorem latch_served (s : State) (k : LaneId) (f : Frame) : (s.served k f).latch = s.latch := by
  have offered : ∀ u : State, (u.offerSlot k).latch = u.latch := fun u => by
    unfold State.offerSlot
    split
    · split
      · exact latch_takeHandOver u
      · rfl
    · rfl
    · rfl
  unfold State.served
  dsimp only
  split
  · exact offered _
  · rfl

theorem keepsFunds_served (s : State) (k : LaneId) (f : Frame) : s.KeepsFunds l (s.served k f) :=
  (arbiterOnly_served s k f).keepsFunds fun e on => by rw [State.latched, latch_served]; exact on

theorem keepsFunds_writeItem (s : State) (code : Byte) (o : CommandOutcome) (last : Bool) :
    o.state.KeepsFunds l (s.writeItem code o last) := by
  refine (arbiterOnly_writeItem s code o last).keepsFunds fun e on => ?_
  unfold State.writeItem
  split <;> exact on

/-- A lane at rest with no record at all has nothing to grant. -/
theorem keepsFunds_of_rest (pool : t.pool = []) (rest : (t.lane l).mode.tracking = false) : s.KeepsFunds l t where
  canonical _ := by rw [State.PoolCanonical, pool]; rfl
  funded _ := ⟨by rw [State.records, pool]; exact Nat.zero_le _,
    fun loaded => by rw [State.overloaded, rest] at loaded; cases loaded⟩
  rated _ tracking := absurd tracking (by rw [rest]; exact Bool.false_ne_true)
  settled _ _ tracking := absurd tracking (by rw [rest]; exact Bool.false_ne_true)

theorem keepsFunds_chipReset (s : State) : s.KeepsFunds l s.chipReset :=
  keepsFunds_of_rest rfl (by rw [lane_chipReset]; rfl)

theorem keepsFunds_powerOn (s : State) (level : Bool) (straps : Straps) :
    s.KeepsFunds l { s.powerOnBlocks with rstN := level, straps := straps } :=
  keepsFunds_of_rest rfl (by rw [lane_powerOn]; rfl)

/-! ### The commands' effects -/

/-- A change of the latch that leaves OVERLOAD latched while it holds. -/
theorem keepsFunds_relatched (lane : t.lane l = s.lane l) (pool : t.pool = s.pool)
    (latched : t.overloaded l = true → t.latched (.overload l) = true) : s.KeepsFunds l t := by
  have records : t.records l = s.records l := by rw [State.records, pool]; rfl
  refine ⟨fun wf => by rw [State.PoolCanonical, pool]; exact wf,
    fun funded => ⟨by rw [records, lane]; exact funded.within, latched⟩,
    fun rated => by rw [State.Rated, lane]; exact rated, fun _ settled => ?_⟩
  rw [State.Settled, State.n, State.w, State.activeRecords, lane, records]
  exact settled

/-- ACK-EVENTS latches an OVERLOAD again whose condition holds (R165). -/
theorem keepsFunds_ackEvents (p : List Byte) (space : Nat) (s : State) :
    s.KeepsFunds l (effectAckEvents p space s).state := by
  unfold effectAckEvents
  refine withLength_state (.refl l s) (withSpace_state (.refl l s) ?_)
  obtain ⟨c, hc⟩ : ∃ c : State, c = { s with latch := s.latch &&& ~~~ (BitVec.ofNat 19 (fieldAt p 0 3)) } := ⟨_, rfl⟩
  rw [← hc]
  obtain ⟨t, ht⟩ : ∃ t : State, t = forEachLane (fun l s => s.latchOverload l) c := ⟨_, rfl⟩
  obtain ⟨u, turn, -, after⟩ := laneTurn_forEachLane_keeping (l := l)
    (f := fun l s => s.latchOverload l) (Q := fun v w => v.latched (.overload l) = true → w.latched (.overload l) = true)
    (fun k s => laneEvent_latchOverload s k) (fun _ => id) (fun h h' => h' ∘ h)
    (fun k s _ => (laneEvent_latchOverload s k).latch _) c
  obtain ⟨lane, pool⟩ : t.lane l = s.lane l ∧ t.pool = s.pool :=
    ht ▸ forEachLane_keeps (P := fun t => t.lane l = s.lane l ∧ t.pool = s.pool)
      (fun k t h => ⟨(State.lane_latchOverload t k l).trans h.1, (State.pool_latchOverload t k).trans h.2⟩) (hc ▸ ⟨rfl, rfl⟩)
  rw [← ht] at turn after ⊢
  refine keepsFunds_relatched lane pool fun loaded => after (State.latchOverload_latched u l ?_)
  rw [State.overloaded, turn.after.1] at loaded
  exact loaded

theorem keepsFunds_writeLaneParams (p : List Byte) (space : Nat) (s : State) :
    s.KeepsFunds l (effectWriteLaneParams p space s).state := by
  unfold effectWriteLaneParams
  refine withLength_state (.refl l s) (withLane_state (.refl l s) fun k _ => withSpace_state (.refl l s) ?_)
  split
  · exact .refl l s
  · rename_i relaxed
    dsimp only
    obtain ⟨u, hu⟩ : ∃ u : State, u = s.modLane k fun x =>
      { x with params := (paramBlockAt p 1).clamped (s.recordCount k) } := ⟨_, rfl⟩
    have event : s.LaneEvent k u := hu ▸ laneEvent_modLane s k _
    have pool : u.pool = s.pool := by rw [hu]; rfl
    rw [← hu]
    split
    · exact keepsFunds_recompute event fun wf => by rw [State.PoolCanonical, pool]; exact wf
    · rename_i other
      have idle : (s.lane k).mode.tracking = false := by
        revert relaxed other
        cases (s.lane k).mode <;> simp [Mode.enforcing, Mode.tracking]
      have lane : u.lane k = { s.lane k with params := (paramBlockAt p 1).clamped (s.recordCount k) } := by
        rw [hu, State.lane_modLane_same]
      have rests : (u.lane k).mode.tracking = false := by rw [lane]; exact idle
      refine event.keepsFunds ⟨fun wf => by rw [State.PoolCanonical, pool]; exact wf, fun funded => ⟨?_, fun loaded => ?_⟩,
        fun _ tracking => absurd tracking (by rw [rests]; exact Bool.false_ne_true),
        fun _ _ tracking => absurd tracking (by rw [rests]; exact Bool.false_ne_true)⟩
      · rw [lane, State.records, pool]
        exact funded.within
      · rw [State.overloaded, rests] at loaded
        cases loaded

theorem keepsFunds_readCounters (p : List Byte) (space : Nat) (s : State) :
    s.KeepsFunds l (effectReadCounters p space s).state := by
  unfold effectReadCounters
  refine withLength_state (.refl l s) ?_
  dsimp only
  split
  · unfold readChipCounters
    refine withSpace_state (.refl l s) ?_
    dsimp only
    split
    · exact keepsFunds_of_eq rfl rfl fun _ => id
    · exact .refl l s
  · refine withLane_state (.refl l s) fun k _ => ?_
    unfold readLaneCounters
    refine withSpace_state (.refl l s) ?_
    dsimp only
    split
    · exact keepsFunds_modLane id rfl
    · exact .refl l s

theorem keepsFunds_writeChip (p : List Byte) (space : Nat) (s : State) :
    s.KeepsFunds l (effectWriteChip p space s).state := by
  unfold effectWriteChip
  refine withLength_state (.refl l s) ?_
  split
  · exact .refl l s
  · exact withSpace_state (.refl l s) (keepsFunds_of_eq rfl rfl fun _ => id)

theorem keepsFunds_setLaneMode (p : List Byte) (space : Nat) (s : State) :
    s.KeepsFunds l (effectSetLaneMode p space s).state := by
  unfold effectSetLaneMode
  refine withLength_state (.refl l s) (withLane_state (.refl l s) fun k _ => ?_)
  split
  · exact .refl l s
  · refine withSpace_state (.refl l s) ?_
    split
    · rename_i entered
      exact keepsFunds_changeMode (requestMode_eq entered)
    · exact .refl l s

theorem keepsFunds_flushFlows (p : List Byte) (space : Nat) (s : State) :
    s.KeepsFunds l (effectFlushFlows p space s).state := by
  unfold effectFlushFlows
  refine withLength_state (.refl l s) (withLane_state (.refl l s) fun k _ => withSpace_state (.refl l s) ?_)
  split
  · exact .refl l s
  · exact (tableWork_removeLaneRecords s k).keepsFunds_handOn

theorem keepsFunds_evictFlow (p : List Byte) (space : Nat) (s : State) :
    s.KeepsFunds l (effectEvictFlow p space s).state := by
  unfold effectEvictFlow
  refine withLength_state (.refl l s) (withLane_state (.refl l s) fun k _ => ?_)
  split
  · exact .refl l s
  · refine withLength_state (.refl l s) (withSpace_state (.refl l s) ?_)
    split
    · exact (tableWork_removeRecord s k _).keepsFunds_handOn
    · exact .refl l s

theorem keepsFunds_startProbe (p : List Byte) (space : Nat) (s : State) :
    s.KeepsFunds l (effectStartProbe p space s).state := by
  unfold effectStartProbe
  refine withLength_state (.refl l s) (withLane_state (.refl l s) fun k _ => ?_)
  split
  · exact .refl l s
  · refine withSpace_state (.refl l s) ?_
    split
    · exact (probeOnly_requestProbe s k _).keepsFunds
    · exact .refl l s

theorem keepsFunds_writeClass (p : List Byte) (space : Nat) (s : State) :
    s.KeepsFunds l (effectWriteClass p space s).state := by
  unfold effectWriteClass
  refine withLength_state (.refl l s) ?_
  split
  · exact .refl l s
  · split
    · exact .refl l s
    · exact withSpace_state (.refl l s) (keepsFunds_of_eq rfl rfl fun _ => id)

theorem keepsFunds_outcome (c : Instr) (space : Nat) (s : State) : s.KeepsFunds l (c.outcome space s).state := by
  have refl := State.KeepsFunds.refl l s
  cases c
  case keepalive p => exact withSpace_state refl (keepsFunds_of_eq rfl rfl fun _ => id)
  case readChip p => exact withSpace_state refl refl
  case writeChip p => exact keepsFunds_writeChip p space s
  case setTimebase p => exact withLength_state refl (withSpace_state refl (keepsFunds_timer s _))
  case ackEvents p => exact keepsFunds_ackEvents p space s
  case setLaneMode p => exact keepsFunds_setLaneMode p space s
  case writeLaneParams p => exact keepsFunds_writeLaneParams p space s
  case readLane p => exact withLength_state refl (withLane_state refl fun _ _ => withSpace_state refl refl)
  case readCounters p => exact keepsFunds_readCounters p space s
  case flushFlows p => exact keepsFunds_flushFlows p space s
  case releaseLane p =>
    exact withLength_state refl (withLane_state refl fun k _ => withSpace_state refl (keepsFunds_releaseLane s k))
  case startProbe p => exact keepsFunds_startProbe p space s
  case writeClass p => exact keepsFunds_writeClass p space s
  case readClass p => exact (state_readClass p space).symm ▸ refl
  case readFlows p => exact (state_readFlows p space).symm ▸ refl
  case evictFlow p => exact keepsFunds_evictFlow p space s
  case chipReset p =>
    show s.KeepsFunds l (effectChipReset p space s).state
    unfold effectChipReset
    split
    · exact keepsFunds_chipReset s
    · exact refl
  all_goals exact refl

/-! ### Every command and every step -/

theorem keepsFunds_inboundFrame (s : State) (k : LaneId) (f : Frame) : s.KeepsFunds l (s.inboundFrame k f) := by
  have sent := keepsFunds_sendStation (l := l) s k f
  unfold State.inboundFrame
  split
  · exact keepsFunds_countLane s k _
  · split
    · exact sent.trans (keepsFunds_countLane _ k _)
    · split
      · exact keepsFunds_receiveControl s k f
      · split
        · exact sent.trans (keepsFunds_countLane _ k _)
        · unfold State.inboundSegment
          split
          · exact sent.trans ((tableGrowth_reportSegment _ k _).toTableWork.keepsFunds_handOn.trans
              (probeOnly_probeCount _ k _).keepsFunds)
          · exact sent

theorem keepsFunds_ite {c : Prop} [Decidable c] (h : s.KeepsFunds l t) : s.KeepsFunds l (if c then t else s) := by
  split
  · exact h
  · exact .refl l s

theorem exec_keepsFunds {c : Instr} (h : exec c s = .next t) (l : LaneId) : s.KeepsFunds l t := by
  have command : ∀ (code : Byte) (params : List Byte), c.command = some (code, params) → s.KeepsFunds l t := by
    intro code params hc
    cases now : s.spaceFor code params with
    | none =>
      rw [exec_command_notNow hc now] at h
      cases h
      exact .refl l s
    | some space =>
      rw [exec_command_done hc now] at h
      cases h
      exact (keepsFunds_outcome c space s).trans (keepsFunds_writeItem ..)
  have limit : ∀ (slot : Nat) (due : FlowRecord → Prop) [DecidablePred due], s.KeepsFunds l (match s.silentRecord slot with
      | some r => if due r then s.limitEvent slot r else s
      | none => s) := fun slot due _ => by
    split
    · rename_i r silent
      exact keepsFunds_ite (keepsFunds_limitEvent silent)
    · exact .refl l s
  cases c
  case inboundArrival k f => cases h; exact keepsFunds_ite (keepsFunds_inboundFrame s k f)
  case outboundArrival k f => cases h; exact keepsFunds_ite (keepsFunds_outboundFrame s k f)
  case powerOn => cases h; exact keepsFunds_powerOn s s.rstN Straps.reset
  case rstNAssert => cases h; exact keepsFunds_powerOn s false Straps.reset
  case rstNRelease a k p =>
    cases h
    split
    · exact .refl l s
    · exact keepsFunds_powerOn s true ⟨a, k, p⟩
  case outputFrameEnd k =>
    cases h
    refine keepsFunds_ite ?_
    obtain idle | ⟨f, output⟩ := Option.eq_none_or_eq_some (s.lane k).output
    · rw [endFrame_of_idle idle]; exact .refl l s
    · rw [endFrame_of_output output]
      exact (keepsFunds_served s k f).trans (keepsFunds_drain _ k)
  case responseHandover => cases h; exact keepsFunds_ite (keepsFunds_takeHandOver s)
  case drainRelease k => cases h; exact keepsFunds_ite (keepsFunds_drain s k)
  case epochTick => cases h; exact keepsFunds_ite (keepsFunds_timerTick s)
  case flowTableTick => cases h; exact keepsFunds_ite (keepsFunds_forEachLane keepsFunds_flowTickLane s)
  case expectationTimeout slot => cases h; exact limit slot.val _
  case ageLimit slot => cases h; exact limit slot.val _
  case gateTick => cases h; exact keepsFunds_ite (keepsFunds_forEachLane keepsFunds_gateTickLane s)
  case holdLimit k => cases h; exact keepsFunds_ite (keepsFunds_reevaluateLoop true _ k s)
  case probeTick =>
    cases h
    exact keepsFunds_ite ((keepsFunds_engineTick s).trans (keepsFunds_forEachLane keepsFunds_intervalTick _))
  case probeWindowStart =>
    cases h
    split
    · exact keepsFunds_ite (keepsFunds_engineTick s)
    · exact .refl l s
    · exact .refl l s
  case probeCompletion => cases h; exact keepsFunds_ite (keepsFunds_engineTick s)
  case probeIntervalRequest k => cases h; exact keepsFunds_ite (keepsFunds_intervalTick k s)
  case keepaliveTick => cases h; exact keepsFunds_ite (keepsFunds_monitorTick s)
  case keepaliveExpiry => cases h; exact keepsFunds_ite (keepsFunds_monitorTick s)
  case refclkStop => cases h; exact keepsFunds_of_eq rfl rfl fun _ => id
  case refclkReturn => cases h; exact keepsFunds_of_eq rfl rfl fun _ => id
  all_goals exact command _ _ rfl

theorem keepsFunds_clockCycle (s : State) : s.KeepsFunds l s.clockCycle := by
  unfold State.clockCycle
  split
  · split
    · exact keepsFunds_timer s _
    · split
      · exact keepsFunds_timer s _
      · exact keepsFunds_of_eq rfl rfl fun _ => id
  · exact .refl l s

theorem step_keepsFunds (h : step s = .next t) (l : LaneId) : s.KeepsFunds l t := by
  unfold step at h
  split at h
  · cases h
    exact keepsFunds_clockCycle s
  · rename_i c rest _
    exact .trans (t := { s with pending := rest }) (keepsFunds_of_eq rfl rfl fun _ => id) (exec_keepsFunds h l)

end

/-- Settles O55: what every step keeps of each lane, taken for all lanes. -/
theorem stepKeepsGrantsWithinBudget : Obligations.StepKeepsGrantsWithinBudget := by
  unfold Obligations.StepKeepsGrantsWithinBudget
  refine ⟨fun s t within latched h => ?_, fun s t canonical recomputed h l => ?_⟩
  · have funded : ∀ l : LaneId, t.Funded l := fun l => (step_keepsFunds h l).funded ⟨within l, latched l⟩
    exact ⟨fun l => (funded l).within, fun l => (funded l).latched⟩
  · exact (step_keepsFunds h l).settled canonical (recomputed l)

end Sys2Proof.Machine

/-! SUPPORT. A recompute of its own with its hand-on to the gate, and the grant of the probe's engine to the head of its
queue (R91, R109, R146). -/

namespace Sys2Proof.Machine

section

variable {l k : LaneId} {s t u : State}

/-! ### What a re-evaluation leaves of its lane -/

/-- The fields of a lane that no accounting and no release changes. -/
def LaneState.settings (x : LaneState) : Mode × LaneParams × Option Nat × Nat :=
  (x.mode, x.params, x.rMeas, x.intervalCount)

theorem LaneState.Accounted.settings {x y : LaneState} (h : x.Accounted y) : y.settings = x.settings := by
  rw [LaneState.settings, h.mode, h.params, h.rMeas, h.intervalCount]
  rfl

theorem settings_releaseHead (s : State) (l : LaneId) : ((s.releaseHead l).lane l).settings = (s.lane l).settings := by
  unfold State.releaseHead
  split
  · rfl
  · rename_i e rest _
    obtain ⟨u, hu⟩ : ∃ u : State, u = s.modLane l fun x => { x with queue := rest } := ⟨_, rfl⟩
    obtain ⟨⟨c, o, r, passed⟩, -⟩ := passOut_stands (u.account l e) l e.frame
    rw [← hu, passed]
    refine (accounted_account u l e).settings.trans ?_
    rw [hu, State.lane_modLane_same]
    rfl

theorem settings_reevaluateLoop (force : Bool) (n : Nat) (l : LaneId) :
    ∀ s : State, ((State.reevaluateLoop force n l s).lane l).settings = (s.lane l).settings := by
  induction n with
  | zero => exact fun _ => rfl
  | succ n ih =>
    intro s
    have released := (ih (s.releaseHead l)).trans (settings_releaseHead s l)
    unfold State.reevaluateLoop
    split
    · rfl
    · split
      · exact released
      · split
        · exact (ih _).trans ((accounted_countLane _ l .forced).settings.trans (settings_releaseHead s l))
        · split
          · exact released
          · rfl

theorem settings_reevaluate (s : State) (l : LaneId) : ((s.reevaluate l).lane l).settings = (s.lane l).settings := by
  unfold State.reevaluate
  split
  · exact settings_reevaluateLoop _ _ l s
  · rfl

/-! ### A recompute and its hand-on -/

theorem settings_recomputeHandOn (s : State) (l : LaneId) :
    ((s.recomputeHandOn l).lane l).settings = (s.lane l).settings := by
  unfold State.recomputeHandOn
  dsimp only
  split
  · exact (settings_reevaluate _ l).trans (accounted_recompute s l).settings
  · exact (accounted_recompute s l).settings

theorem probeTally_recomputeHandOn (s : State) (l : LaneId) : (s.recomputeHandOn l).probeTally l = s.probeTally l := by
  unfold State.recomputeHandOn
  dsimp only
  split
  · exact (probeTally_reevaluate _ l).trans (probeTally_recompute s l)
  · exact probeTally_recompute s l

/-- A re-evaluation is made on an ACTIVE lane alone. -/
theorem reconsidered_of_cause (s : State) (l : LaneId) {cause : Prop} [Decidable cause] :
    ∃ released : List QueueEntry, s.Reconsidered l cause released (if cause then s.reevaluate l else s) := by
  by_cases active : (s.lane l).mode = .active ∧ cause
  · obtain ⟨released, spec⟩ := reevaluate_spec active.1
    rw [if_pos active.2]
    exact ⟨released, fun _ => spec, fun none => absurd active none⟩
  · have still : (if cause then s.reevaluate l else s) = s := by
      split
      · rename_i c
        exact if_neg fun mode => active ⟨mode, c⟩
      · rfl
    rw [still]
    exact ⟨[], fun c => absurd c active, fun _ => ⟨rfl, rfl⟩⟩

/-- A rise of B lets the gate re-evaluate (R91, R109). -/
theorem recomputeHandOn_reconsidered (s : State) (l : LaneId) : ∃ released : List QueueEntry,
    (s.recompute l).Reconsidered l ((s.lane l).budget < ((s.recompute l).lane l).budget) released (s.recomputeHandOn l) :=
  reconsidered_of_cause _ l

/-! ### The grant of the engine -/

/-- An IDLE engine with nothing queued stays IDLE, and with a served lane's request at the head takes it. -/
theorem probe_grantProbe_of_idle (idle : s.probe.engine = .idle)
    (served : ∀ r ∈ s.probe.queue, (s.lane r.lane).mode.served = true) : s.grantProbe.probe =
      match s.probe.queue with
      | [] => s.probe
      | r :: rest => ⟨rest, .waiting r, 0, 0, true⟩ := by
  rw [State.grantProbe, if_pos idle]
  cases queue : s.probe.queue with
  | nil =>
    dsimp only [State.nextServed]
    rw [← queue]
  | cons r rest =>
    have head : s.nextServed (r :: rest) = some (r, rest) :=
      if_pos (served r (by rw [queue]; exact List.mem_cons_self))
    rw [head]

theorem engine_grantProbe_of_idle (idle : s.probe.engine = .idle) (r : ProbeRequest) :
    s.grantProbe.probe.engine ≠ .measuring r := by
  rw [State.grantProbe, if_pos idle]
  split
  · exact nofun
  · rw [idle]
    exact nofun

end

/-! ### A staged timebase -/

section

variable (s : State) (l : LaneId)

theorem settings_rebaseLane : ((State.rebaseLane l s).lane l).settings = (s.lane l).settings := by
  unfold State.rebaseLane
  split
  · exact settings_recomputeHandOn s l
  · rfl

theorem probeTally_rebaseLane : (State.rebaseLane l s).probeTally l = s.probeTally l := by
  unfold State.rebaseLane
  split
  · exact probeTally_recomputeHandOn s l
  · rfl

end

/-- The timebase change on the grant engine: every rate is forgotten, every tracking lane recomputed (R94, R139). -/
def State.rebased (s : State) : State := forEachLane State.rebaseLane s.forgetRates

section

variable (s : State)

theorem takeStaged_of_some {p e : Nat} (staged : s.timer.staged = some (p, e)) : s.takeStaged = (State.rebased { s with
    timer := { s.timer with prescale := p, epochDivisor := e, staged := none } }).abandonProbe := by
  unfold State.takeStaged
  rw [staged]
  rfl

theorem rest_forgetRates : { s.forgetRates with lanes := s.lanes } = s :=
  forEachLane_keeps (P := fun t : State => { t with lanes := s.lanes } = s) (fun _ _ h => h) rfl

theorem lane_forgetRates (l : LaneId) : s.forgetRates.lane l = { s.lane l with rMeas := none } :=
  lane_forEachLane_modLane ..

/-- Each lane's turn begins with its rate forgotten. -/
theorem laneTurn_rebased (l : LaneId) : ∃ u : State, s.forgetRates.LaneTurn l u (State.rebaseLane l u) s.rebased ∧
    u.lane l = { s.lane l with rMeas := none } := by
  obtain ⟨u, turn⟩ := laneTurn_forEachLane laneEvent_rebaseLane l s.forgetRates
  exact ⟨u, turn, turn.before.1.trans (lane_forgetRates s l)⟩

/-- On a tracking lane the recompute is made on the state in which the lane's turn begins, and handed on (R91). -/
theorem laneTurn_rebased_reconsidered {l : LaneId} (tracks : (s.lane l).mode.tracking = true) :
    ∃ (u v : State) (released : List QueueEntry), s.forgetRates.LaneTurn l u v s.rebased ∧
      (u.recompute l).Reconsidered l ((s.lane l).budget < ((u.recompute l).lane l).budget) released v := by
  obtain ⟨u, turn, lane⟩ := laneTurn_rebased s l
  have recomputes : State.rebaseLane l u = u.recomputeHandOn l := if_pos (by rw [lane]; exact tracks)
  obtain ⟨released, spec⟩ := recomputeHandOn_reconsidered u l
  rw [lane] at spec
  exact ⟨u, _, released, recomputes ▸ turn, spec⟩

theorem settings_rebased (l : LaneId) : (s.rebased.lane l).rMeas = none ∧ (s.rebased.lane l).mode = (s.lane l).mode ∧
    (s.rebased.lane l).params = (s.lane l).params := by
  obtain ⟨u, turn, lane⟩ := laneTurn_rebased s l
  have same := (congrArg LaneState.settings turn.after.1).trans (settings_rebaseLane u l)
  simp only [LaneState.settings, lane, Prod.mk.injEq] at same
  obtain ⟨mode, params, rMeas, -⟩ := same
  exact ⟨rMeas, mode, params⟩

/-- Every tracking lane's R_eff is R_nominal, and its B the budget of R_nominal (R80, R81). -/
theorem rated_rebased {l : LaneId} (tracks : (s.lane l).mode.tracking = true) :
    (s.rebased.lane l).rEff = (s.lane l).params.rNominal ∧
      (s.rebased.lane l).budget = budgetOf (s.lane l).params (s.lane l).params.rNominal := by
  obtain ⟨rMeas, mode, params⟩ := settings_rebased s l
  obtain ⟨u, turn, -⟩ := laneTurn_rebased s l
  have rated : s.rebased.Rated l := by
    rw [State.Rated, turn.after.1]
    exact rated_rebaseLane u l
  obtain ⟨rEff, budget⟩ := rated (by rw [mode]; exact tracks)
  rw [rMeas, params] at rEff
  rw [rEff, params] at budget
  exact ⟨rEff, budget⟩

/-- A lane at rest keeps its budget and its records (R139). -/
theorem rests_rebased {l : LaneId} (rests : (s.lane l).mode.tracking = false) :
    s.rebased.lane l = { s.lane l with rMeas := none } ∧ s.rebased.records l = s.records l := by
  obtain ⟨u, turn, lane⟩ := laneTurn_rebased s l
  have still : State.rebaseLane l u = u := if_neg (by rw [lane]; exact rests ▸ Bool.false_ne_true)
  rw [still] at turn
  have pool : s.forgetRates.pool = s.pool := (congrArg State.pool (rest_forgetRates s) :)
  refine ⟨turn.after.1.trans lane, (turn.after.2.trans turn.before.2).trans ?_⟩
  rw [State.records, pool]
  rfl

/-- PROBE and every PROBE_UNSAT stand (R139). -/
theorem probeTally_rebased (l : LaneId) : s.rebased.probeTally l = s.probeTally l := by
  have forgets : s.forgetRates.latched .probe = s.latched .probe :=
    (congrArg (fun x : State => x.latched .probe) (rest_forgetRates s) :)
  have latched : s.rebased.latched .probe = s.forgetRates.latched .probe :=
    forEachLane_keeps (P := fun t : State => t.latched .probe = s.forgetRates.latched .probe)
      (fun l t h => ((congrArg Prod.fst (probeTally_rebaseLane t l) :)).trans h) rfl
  obtain ⟨u, turn, lane⟩ := laneTurn_rebased s l
  have counted : (s.rebased.lane l).counters.probeUnsat = (u.lane l).counters.probeUnsat :=
    (congrArg (·.counters.probeUnsat) turn.after.1).trans (congrArg Prod.snd (probeTally_rebaseLane u l))
  rw [State.probeTally, latched, forgets, counted, lane]
  rfl

/-- Nothing outside the lanes and the flow table changes but the latch. -/
theorem sameRest_rebased : { s.rebased with lanes := s.lanes, pool := s.pool, latch := s.latch } = s := by
  have apart := rest_forgetRates s
  have rest : s.forgetRates.SameRest s.rebased := foldl_sameRest laneEvent_rebaseLane allLanes s.forgetRates
  have forgets : s.SameRest s.forgetRates := (congrArg (fun t : State => { t with pool := s.pool, latch := s.latch }) apart :)
  exact forgets.trans rest

/-- An engine that serves a request gives it up for the head of the queue (R146, R151). -/
theorem probe_abandonProbe : (s.probe.engine = .idle → s.abandonProbe = s) ∧
    (∀ r : ProbeRequest, s.abandonProbe.probe.engine ≠ .measuring r) ∧
    (s.probe.engine ≠ .idle → (∀ r ∈ s.probe.queue, (s.lane r.lane).mode.served = true) →
      s.abandonProbe.probe = match s.probe.queue with
        | [] => ⟨[], .idle, 0, 0, true⟩
        | r :: rest => ⟨rest, .waiting r, 0, 0, true⟩) := by
  obtain ⟨v, hv⟩ : ∃ v : State, v = { s with probe := ⟨s.probe.queue, .idle, 0, 0, true⟩ } := ⟨_, rfl⟩
  have idle : v.probe.engine = .idle := by rw [hv]
  have serves : s.probe.engine ≠ .idle → s.abandonProbe = v.grantProbe := fun busy => by
    rw [hv]
    unfold State.abandonProbe
    cases engine : s.probe.engine with
    | idle => exact absurd engine busy
    | waiting r => rfl
    | measuring r => rfl
  have rests : s.probe.engine = .idle → s.abandonProbe = s := fun engine => by
    unfold State.abandonProbe
    rw [engine]
    rfl
  refine ⟨rests, fun r => ?_, fun busy served => ?_⟩
  · by_cases engine : s.probe.engine = .idle
    · rw [rests engine, engine]
      exact nofun
    · rw [serves engine]
      exact engine_grantProbe_of_idle idle r
  · rw [serves busy, probe_grantProbe_of_idle idle (by rw [hv]; exact served), hv]
    cases s.probe.queue with
    | nil => rfl
    | cons r rest => rfl

end

/-- Settles O40: each lane has one turn after the rates are forgotten, and the probe is abandoned at the end. -/
theorem epochTickAdvancesTheTimer : Obligations.EpochTickAdvancesTheTimer := by
  unfold Obligations.EpochTickAdvancesTheTimer
  have ticks : ∀ s : State, s.clocked = true → exec .epochTick s = .next s.timerTick := fun s clocked =>
    congrArg Host.Outcome.next (if_pos clocked)
  refine ⟨fun s clocked staged => ?_, fun s p e clocked staged => ?_⟩
  · rw [ticks s clocked, State.timerTick, State.takeStaged]
    simp only [staged]
  obtain ⟨x, hx⟩ : ∃ x : Timer, x = ⟨p, e, none, 0, 0, (s.timer.epochNumber + 1) % 65536⟩ := ⟨_, rfl⟩
  obtain ⟨s1, h1⟩ : ∃ s1 : State, s1 = { s with timer := x } := ⟨_, rfl⟩
  have ticked : s.timerTick = s1.rebased.abandonProbe := by
    rw [h1, hx]
    exact takeStaged_of_some _ staged
  have lane : ∀ l : LaneId, s1.lane l = s.lane l := fun l => by rw [h1]; rfl
  have settings := settings_rebased s1
  have rated := fun l => rated_rebased s1 (l := l)
  have rests := fun l => rests_rebased s1 (l := l)
  have tally := probeTally_rebased s1
  have rest := sameRest_rebased s1
  have turns := fun l => laneTurn_rebased_reconsidered s1 (l := l)
  obtain ⟨v, hv⟩ : ∃ v : State, v = s1.rebased := ⟨_, rfl⟩
  rw [← hv] at settings rated rests tally rest turns ticked
  obtain ⟨t, ht⟩ : ∃ t : State, t = v.abandonProbe := ⟨_, rfl⟩
  obtain ⟨q, hq⟩ : v.ProbeOnly t := ht ▸ probeOnly_abandonProbe v
  have lanes : ∀ l : LaneId, t.lane l = v.lane l := fun l => by rw [hq]; rfl
  have records : ∀ l : LaneId, t.records l = v.records l := fun l => by rw [hq]; rfl
  have tally : ∀ l : LaneId, t.probeTally l = s.probeTally l := fun l => by
    rw [hq]
    exact (tally l).trans (by rw [h1]; rfl)
  obtain ⟨timer, windows, keepalive, control⟩ : t.timer = x ∧ t.windows = s.windows ∧ t.keepalive = s.keepalive ∧
      t.control = s.control := by
    rw [hq]
    rw [h1] at rest
    exact ⟨(congrArg State.timer rest :), (congrArg State.windows rest :), (congrArg State.keepalive rest :),
      (congrArg State.control rest :)⟩
  have probe : v.probe = s.probe := (congrArg State.probe rest :).trans (by rw [h1])
  obtain ⟨idle, abandoned, granted⟩ := probe_abandonProbe v
  rw [← ht, probe] at granted idle
  rw [← ht] at abandoned
  refine ⟨t, (ticks s clocked).trans (by rw [ticked, ht]), timer.trans hx, fun l => ?_, fun l tracks => ?_,
    ⟨s1.forgetRates, fun l => ?_, ?_, ?_, fun l tracks => ?_⟩, fun l idles => ?_, abandoned, fun engine => ?_,
    fun busy legal => granted busy fun r hr => ?_, (congrArg Prod.fst (tally 0) :), fun l => (congrArg Prod.snd (tally l) :),
    windows, keepalive, control⟩
  · rw [lanes, ← lane]
    exact settings l
  · rw [lanes, ← lane]
    exact rated l (by rw [lane]; exact tracks)
  · rw [← lane]
    exact lane_forgetRates s1 l
  · have apart := rest_forgetRates s1
    rw [h1] at apart ⊢
    exact (congrArg (fun y : State => { y with timer := s.timer }) apart :)
  · exact ((congrArg State.timer (rest_forgetRates s1) :).trans (by rw [h1])).trans timer.symm
  · obtain ⟨u, w, released, turn, spec⟩ := turns l (by rw [lane]; exact tracks)
    rw [lane] at spec
    exact ⟨u, w, released, ⟨turn.before, by rw [hq]; exact turn.others, turn.rest, turn.turn, by rw [hq]; exact turn.after⟩, spec⟩
  · rw [lanes, records]
    obtain ⟨still, recorded⟩ := rests l (by rw [lane]; exact idles)
    exact ⟨still.trans (by rw [lane]), recorded.trans (by rw [h1]; rfl)⟩
  · rw [idle engine, probe]
  · rw [(settings r.lane).2.1, lane]
    exact legal.2.1 r hr

end Sys2Proof.Machine

/-! SUPPORT. The end tick of a probe's window: what its completion writes, and what the interval counts of the same tick
leave of it (R142, R149, R150, R152). -/

namespace Sys2Proof.Machine

/-! ### The interval counts of a tick -/

/-- The interval count of a lane after a tick (R142). -/
def LaneState.interval (x : LaneState) : Nat :=
  if x.mode = .active ∧ x.params.probeInterval ≠ 0 then
    if x.params.probeInterval ≤ x.intervalCount + 1 then 0 else x.intervalCount + 1
  else x.intervalCount

/-- What the interval counts of a tick leave: the lanes but for their counts, the pool and the latch; a busy engine with
its window, and what stood in its queue. -/
structure State.IntervalWork (s t : State) : Prop where
  pool : t.pool = s.pool
  latch : t.latch = s.latch
  busy : s.probe.engine ≠ .idle → ∃ more : List ProbeRequest, t.probe = { s.probe with queue := s.probe.queue ++ more }
  measures : ∀ r : ProbeRequest, t.probe.engine = .measuring r → s.probe.engine = .measuring r

section

variable {l k : LaneId} {s t u : State}

theorem State.IntervalWork.refl (s : State) : s.IntervalWork s :=
  ⟨rfl, rfl, fun _ => ⟨[], by rw [List.append_nil]⟩, fun _ => id⟩

theorem State.IntervalWork.trans (h : s.IntervalWork t) (h' : t.IntervalWork u) : s.IntervalWork u where
  pool := h'.pool.trans h.pool
  latch := h'.latch.trans h.latch
  busy engine := by
    obtain ⟨more, first⟩ := h.busy engine
    obtain ⟨more', second⟩ := h'.busy (by rw [first]; exact engine)
    exact ⟨more ++ more', by rw [second, first, List.append_assoc]⟩
  measures r engine := h.measures r (h'.measures r engine)

/-- A SHORT request joins behind the queue, or a queued request of its lane stands as it was (R143). -/
theorem intervalWork_requestProbe (s : State) (k : LaneId) : s.IntervalWork (s.requestProbe k .short) := by
  unfold State.requestProbe
  split
  · have kinds : s.probe.queue.map (fun r => if r.lane = k then { r with kind := r.kind.join .short } else r) =
        s.probe.queue := by
      refine (List.map_congr_left fun r _ => ?_).trans (List.map_id _)
      split
      · cases r with
        | mk lane kind => cases kind <;> rfl
      · rfl
    rw [kinds]
    exact .refl s
  · obtain ⟨v, hv⟩ : ∃ v : State, v = { s with probe := { s.probe with queue := s.probe.queue ++ [⟨k, .short⟩] } } := ⟨_, rfl⟩
    have same : v.probe.engine = s.probe.engine := by rw [hv]
    obtain ⟨p, granted⟩ := probeOnly_grantProbe v
    rw [← hv]
    refine ⟨by rw [granted, hv], by rw [granted, hv], fun engine => ⟨[⟨k, .short⟩], ?_⟩, fun r engine => ?_⟩
    · rw [State.grantProbe, if_neg (same ▸ engine), hv]
    · by_cases idle : v.probe.engine = .idle
      · exact absurd engine (engine_grantProbe_of_idle idle r)
      · rw [State.grantProbe, if_neg idle] at engine
        exact same ▸ engine

theorem intervalWork_intervalTick (k : LaneId) (s : State) : s.IntervalWork (State.intervalTick k s) := by
  have counted : ∀ n : Nat, s.IntervalWork (s.modLane k fun x => { x with intervalCount := n }) := fun n =>
    ⟨rfl, rfl, fun _ => ⟨[], by rw [List.append_nil]; rfl⟩, fun _ => id⟩
  unfold State.intervalTick
  split
  · split
    · exact (counted 0).trans (intervalWork_requestProbe _ k)
    · exact counted ((s.lane k).intervalCount + 1)
  · exact .refl s

theorem lane_intervalTick (k : LaneId) (s : State) (l : LaneId) : (State.intervalTick k s).lane l =
    (s.modLane k fun x => { x with intervalCount := x.interval }).lane l := by
  have probed : ∀ {u v : State}, u.ProbeOnly v → v.lane l = u.lane l := fun h => (h.spares l).lane
  rw [State.lane_modLane]
  unfold State.intervalTick LaneState.interval
  by_cases counts : (s.lane k).mode = .active ∧ (s.lane k).params.probeInterval ≠ 0
  · by_cases due : (s.lane k).params.probeInterval ≤ (s.lane k).intervalCount + 1
    · simp only [if_pos counts, if_pos due, probed (probeOnly_requestProbe _ k .short), State.lane_modLane]
    · simp only [if_pos counts, if_neg due, State.lane_modLane]
  · simp only [if_neg counts]
    split
    · rename_i e
      rw [e]
    · rfl

theorem lane_intervalTicks (s : State) (l : LaneId) :
    (forEachLane State.intervalTick s).lane l = { s.lane l with intervalCount := (s.lane l).interval } := by
  rw [← lane_forEachLane_modLane s (fun x => { x with intervalCount := x.interval }) l]
  refine List.foldl_rel (r := fun a b : State => ∀ l : LaneId, a.lane l = b.lane l) (fun _ => rfl)
    (fun k _ a b same l => ?_) l
  rw [lane_intervalTick, State.lane_modLane, State.lane_modLane, same, same]

/-! ### The completion -/

theorem latchOverload_probe (s : State) (l : LaneId) (p : Probe) :
    State.latchOverload { s with probe := p } l = { s.latchOverload l with probe := p } := by
  have same : State.overloaded { s with probe := p } l = s.overloaded l := rfl
  unfold State.latchOverload
  rw [same]
  split
  · rfl
  · rfl

/-- A recompute reads and writes nothing of the probe. -/
theorem recompute_probe (s : State) (l : LaneId) (p : Probe) :
    State.recompute { s with probe := p } l = { s.recompute l with probe := p } := by
  obtain ⟨u, writes, same⟩ : ∃ u : State, s.recompute l = u.latchOverload l ∧
      State.recompute { s with probe := p } l = State.latchOverload { u with probe := p } l := ⟨_, rfl, rfl⟩
  rw [same, writes, latchOverload_probe]

/-- R_eff and B after a recompute with its hand-on, in every mode (R80, R81). -/
theorem rates_recomputeHandOn (s : State) (l : LaneId) :
    ((s.recomputeHandOn l).lane l).rEff = effectiveRate (s.lane l).params (s.lane l).rMeas ∧
      ((s.recomputeHandOn l).lane l).budget = s.dueBudget l := by
  have same := settings_recomputeHandOn s l
  simp only [LaneState.settings, Prod.mk.injEq] at same
  obtain ⟨mode, params, rMeas, -⟩ := same
  by_cases tracks : (s.lane l).mode.tracking = true
  · obtain ⟨rEff, budget⟩ := rated_recomputeHandOn s l (by rw [mode]; exact tracks)
    rw [params, rMeas] at rEff
    rw [rEff, params] at budget
    exact ⟨rEff, budget⟩
  · have idle : (s.recompute l).reevaluate l = s.recompute l := if_neg fun active =>
      tracks (by rw [(accounted_recompute s l).mode] at active; rw [active]; rfl)
    have only : s.recomputeHandOn l = s.recompute l := by
      unfold State.recomputeHandOn
      dsimp only
      rw [idle, ite_self]
    rw [only, recompute_lane]
    exact ⟨rfl, rfl⟩

/-- The state in which a window's completion begins: the window's last tick counted, the backlog tested (R149). -/
def State.windowEnd (s : State) (r : ProbeRequest) : State := { s with
  probe := { s.probe with
    windowTicks := s.probe.windowTicks + 1
    valid := s.probe.valid && s.backlogged r.lane } }

/-- The completion up to PROBE and the next grant: the rate of a valid window, or PROBE_UNSAT (R150). -/
def State.measured (s : State) (r : ProbeRequest) : State :=
  if s.probe.valid then
    (s.modLane r.lane fun x =>
      { x with rMeas := some (measuredRate s.probe.byteCount r.kind.window x.params.rNominal) }).recomputeHandOn r.lane
  else s.countLane r.lane .probeUnsat

theorem laneEvent_measured (s : State) (r : ProbeRequest) : s.LaneEvent r.lane (s.measured r) := by
  unfold State.measured
  split
  · exact (laneEvent_modLane s r.lane _).trans (laneEvent_recomputeHandOn _ r.lane)
  · exact laneEvent_countLane s r.lane _

/-- The end tick: the completion, PROBE latched, and the engine granted anew. -/
theorem engineTick_of_end {r : ProbeRequest} (engine : s.probe.engine = .measuring r)
    (ends : r.kind.window ≤ s.probe.windowTicks + 1) : ∃ v : State, s.engineTick = v.grantProbe ∧
      v.lanes = ((s.windowEnd r).measured r).lanes ∧ v.pool = ((s.windowEnd r).measured r).pool ∧
      v.latched .probe = true ∧ v.probe.engine = .idle ∧ v.probe.queue = s.probe.queue := by
  obtain ⟨w, hw⟩ : ∃ w : State, w = (s.windowEnd r).measured r := ⟨_, rfl⟩
  have queue : w.probe = (s.windowEnd r).probe := hw ▸ (congrArg State.probe (laneEvent_measured _ r).rest :)
  refine ⟨{ w.latchEvent .probe with probe := { w.probe with engine := .idle } }, ?_, by rw [hw]; rfl, by rw [hw]; rfl,
    State.latched_latchEvent_same w .probe, rfl, by rw [queue]; rfl⟩
  unfold State.engineTick
  rw [engine, hw]
  exact if_pos ends

/-- A valid window gives the lane its rate, a recompute with it, and the hand-on (R91, R150). -/
theorem measured_of_valid {r : ProbeRequest} (valid : s.probe.valid = true) {m : Nat}
    (rate : m = measuredRate s.probe.byteCount r.kind.window (s.lane r.lane).params.rNominal) :
    s.measured r = (s.modLane r.lane fun x => { x with rMeas := some m }).recomputeHandOn r.lane := by
  rw [State.measured, if_pos valid, State.modLane, State.modLane, rate]

/-- What a valid window leaves of its lane (R80, R81, R150). -/
theorem lane_measured_of_valid {r : ProbeRequest} (valid : s.probe.valid = true) {m : Nat}
    (rate : m = measuredRate s.probe.byteCount r.kind.window (s.lane r.lane).params.rNominal) :
    ((s.measured r).lane r.lane).settings =
        ((s.lane r.lane).mode, (s.lane r.lane).params, some m, (s.lane r.lane).intervalCount) ∧
      ((s.measured r).lane r.lane).rEff = min (s.lane r.lane).params.rNominal m ∧
      ((s.measured r).lane r.lane).budget = budgetOf (s.lane r.lane).params (min (s.lane r.lane).params.rNominal m) ∧
      ((s.measured r).lane r.lane).counters.probeUnsat = (s.lane r.lane).counters.probeUnsat := by
  obtain ⟨u, hu⟩ : ∃ u : State, u = s.modLane r.lane fun x => { x with rMeas := some m } := ⟨_, rfl⟩
  have lane : u.lane r.lane = { s.lane r.lane with rMeas := some m } := by rw [hu, State.lane_modLane_same]
  obtain ⟨rEff, budget⟩ := rates_recomputeHandOn u r.lane
  rw [measured_of_valid valid rate, ← hu]
  refine ⟨?_, ?_, ?_, ?_⟩
  · rw [settings_recomputeHandOn, lane]
    rfl
  · rw [rEff, lane]
    rfl
  · rw [budget, State.dueBudget, lane]
    rfl
  · have counted : _ = _ := congrArg Prod.snd (probeTally_recomputeHandOn u r.lane)
    exact counted.trans (by rw [State.probeTally, lane])

/-- A window that is not valid counts PROBE_UNSAT and nothing else (R150). -/
theorem lane_measured_of_unsat {r : ProbeRequest} (unsat : s.probe.valid = false) :
    (s.measured r).lane r.lane = { s.lane r.lane with
      counters := { (s.lane r.lane).counters with probeUnsat := bump (s.lane r.lane).counters.probeUnsat } } ∧
      (s.measured r).pool = s.pool := by
  rw [State.measured, unsat]
  exact ⟨State.lane_countLane_same .., rfl⟩

/-- At a valid end tick the recompute is that of the state with the rate written, and the gate reconsiders (R91, R109). -/
theorem measured_reconsidered {r : ProbeRequest} (valid : (s.windowEnd r).probe.valid = true) {m : Nat}
    (rate : m = measuredRate s.probe.byteCount r.kind.window (s.lane r.lane).params.rNominal) :
    ∃ (w : State) (released : List QueueEntry),
      { w with probe := s.probe } = (s.modLane r.lane fun x => { x with rMeas := some m }).recompute r.lane ∧
      w.Reconsidered r.lane ((s.lane r.lane).budget < (w.lane r.lane).budget) released ((s.windowEnd r).measured r) := by
  obtain ⟨x, hx⟩ : ∃ x : State, x = (s.windowEnd r).modLane r.lane fun y => { y with rMeas := some m } := ⟨_, rfl⟩
  obtain ⟨released, spec⟩ := recomputeHandOn_reconsidered x r.lane
  have before : (x.lane r.lane).budget = (s.lane r.lane).budget := by rw [hx, State.lane_modLane_same]; rfl
  have whole : (s.windowEnd r).measured r = x.recomputeHandOn r.lane := hx ▸ measured_of_valid valid rate
  rw [before, ← whole] at spec
  exact ⟨x.recompute r.lane, released, by rw [← recompute_probe, hx]; rfl, spec⟩

theorem settings_measured (s : State) (r : ProbeRequest) (l : LaneId) :
    ((s.measured r).lane l).mode = (s.lane l).mode ∧ ((s.measured r).lane l).params = (s.lane l).params ∧
      ((s.measured r).lane l).intervalCount = (s.lane l).intervalCount := by
  by_cases e : l = r.lane
  · subst e
    cases valid : s.probe.valid with
    | true =>
      have same := (lane_measured_of_valid (r := r) valid rfl).1
      simp only [LaneState.settings, Prod.mk.injEq] at same
      obtain ⟨mode, params, -, count⟩ := same
      exact ⟨mode, params, count⟩
    | false =>
      rw [(lane_measured_of_unsat (r := r) valid).1]
      exact ⟨rfl, rfl, rfl⟩
  · rw [(laneEvent_measured s r).lanes l e]
    exact ⟨rfl, rfl, rfl⟩

/-- The tick's interval counts, where the command is the whole tick; the completion as a command of its own has none. -/
theorem exec_endTick {c : Instr} {r : ProbeRequest} (row : c = .probeTick ∨ c = .probeCompletion)
    (clocked : s.clocked = true) (engine : s.probe.engine = .measuring r)
    (ends : r.kind.window ≤ s.probe.windowTicks + 1) : ∃ t : State, exec c s = .next t ∧ s.engineTick.IntervalWork t ∧
      (c = .probeCompletion → t = s.engineTick) ∧
      ∀ l : LaneId, t.lane l = { s.engineTick.lane l with
        intervalCount := if c = .probeTick then (s.engineTick.lane l).interval else (s.engineTick.lane l).intervalCount } := by
  obtain rfl | rfl := row
  · refine ⟨forEachLane State.intervalTick s.engineTick, congrArg Host.Outcome.next (if_pos clocked), ?_, nofun,
      fun l => ?_⟩
    · exact forEachLane_keeps (P := s.engineTick.IntervalWork) (fun k u h => h.trans (intervalWork_intervalTick k u)) (.refl _)
    · rw [lane_intervalTicks, if_pos rfl]
  · have last : s.endTickNext = true := by
      rw [State.endTickNext, engine]
      exact decide_eq_true ends
    refine ⟨s.engineTick, congrArg Host.Outcome.next (if_pos (by rw [clocked, last]; rfl)), .refl _, fun _ => rfl, fun l => ?_⟩
    rw [if_neg nofun]

end

theorem window_eq (k : ProbeKind) : k.window = if k = .long then 8 else 2 := by cases k <;> rfl

/-- Settles O47: the completion of the window, then the grant, then the interval counts of the tick. -/
theorem probeCompletionWritesTheRate : Obligations.ProbeCompletionWritesTheRate := by
  unfold Obligations.ProbeCompletionWritesTheRate
  intro c s r window row clocked engine length ends
  rw [← window_eq] at length
  subst length
  obtain ⟨t, done, work, only, counts⟩ := exec_endTick row clocked engine ends
  obtain ⟨v, ticked, lanes, pool, latched, idle, queue⟩ := engineTick_of_end engine ends
  obtain ⟨u, hu⟩ : ∃ u : State, u = s.windowEnd r := ⟨_, rfl⟩
  obtain ⟨w, hw⟩ : ∃ w : State, w = u.measured r := ⟨_, rfl⟩
  rw [← hu, ← hw] at lanes pool
  rw [ticked] at work only counts
  -- The grant changes the probe alone, so the lanes are those of the completion but for their interval counts.
  obtain ⟨p, granted⟩ := probeOnly_grantProbe v
  have lane : ∀ l : LaneId, v.grantProbe.lane l = w.lane l := fun l => by rw [granted]; exact State.lane_congr lanes l
  have outside : t.pool = w.pool := work.pool.trans (by rw [granted]; exact pool)
  have latched : t.latched .probe = true := by rw [State.latched, work.latch, granted]; exact latched
  simp only [lane] at counts
  have begins : ∀ l : LaneId, u.lane l = s.lane l := fun l => by rw [hu]; rfl
  have settings : ∀ l : LaneId, (w.lane l).mode = (s.lane l).mode ∧ (w.lane l).params = (s.lane l).params ∧
      (w.lane l).intervalCount = (s.lane l).intervalCount := fun l => by
    have same := settings_measured u r l
    rw [← hw, begins] at same
    exact same
  have standing : ∀ l : LaneId, t.lane l = { w.lane l with intervalCount := (t.lane l).intervalCount } := fun l => by
    rw [counts l]
  have valid : u.probe.valid = (s.probe.valid && s.backlogged r.lane) := by rw [hu]; rfl
  have event : u.LaneEvent r.lane w := hw ▸ laneEvent_measured u r
  refine ⟨t, done, latched, fun measures => ?_, fun q rest legal head => ?_, fun row empty => ?_, fun sound backlog => ?_,
    fun unsat => ?_, fun l ne => ⟨?_, ?_⟩, fun l => ?_⟩
  · exact engine_grantProbe_of_idle idle r (work.measures r measures)
  · have next : v.grantProbe.probe = ⟨rest, .waiting q, 0, 0, true⟩ := by
      rw [probe_grantProbe_of_idle idle fun x hx => ?_, queue, head]
      rw [State.lane_congr lanes, (settings x.lane).1]
      exact legal.2.1 x (queue ▸ hx)
    obtain ⟨more, behind⟩ := work.busy (by rw [next]; exact nofun)
    rw [next] at behind
    refine ⟨by rw [behind], by rw [behind], by rw [behind], by rw [behind], by rw [behind]; exact List.prefix_append .., ?_⟩
    exact fun row => by rw [only row, next]
  · have rests : v.grantProbe.probe = v.probe := by
      rw [probe_grantProbe_of_idle idle (by rw [queue, empty]; exact nofun), queue, empty]
    rw [only row, rests]
    exact ⟨idle, queue.trans empty⟩
  · have sound : u.probe.valid = true := by rw [valid, sound, State.backlogged, decide_eq_true backlog]; rfl
    obtain ⟨m, rate⟩ : ∃ m : Nat, m = measuredRate s.probe.byteCount r.kind.window (s.lane r.lane).params.rNominal := ⟨_, rfl⟩
    have rate' : m = measuredRate u.probe.byteCount r.kind.window (u.lane r.lane).params.rNominal := by
      rw [rate, begins, hu]; rfl
    obtain ⟨same, rEff, budget, counted⟩ := lane_measured_of_valid sound rate'
    rw [← hw, begins] at same rEff budget counted
    simp only [LaneState.settings, Prod.mk.injEq] at same
    obtain ⟨-, -, rMeas, -⟩ := same
    obtain ⟨x, released, writes, spec⟩ := measured_reconsidered (hu ▸ sound) rate
    rw [← hu, ← hw] at spec
    refine ⟨m, rate, ?_, ?_, ?_, ?_, x, w, released, writes, spec, standing r.lane, ?_⟩
    · rw [standing]; exact rMeas
    · rw [standing]; exact rEff
    · rw [standing]; exact budget
    · rw [standing]; exact counted
    · rw [State.records, outside]; rfl
  · have unsat : u.probe.valid = false := by
      rw [valid, State.backlogged]
      obtain flawed | below := unsat
      · rw [flawed]; rfl
      · rw [decide_eq_false (Nat.not_le_of_lt below), Bool.and_false]
    obtain ⟨own, records⟩ := lane_measured_of_unsat (r := r) unsat
    rw [← hw, begins] at own
    refine ⟨?_, outside.trans (hw ▸ records.trans (by rw [hu]; rfl))⟩
    rw [standing, own]
  · rw [standing, event.lanes l ne, begins]
  · rw [State.records, outside]
    exact (event.records l ne).trans (by rw [hu]; rfl)
  · obtain ⟨mode, params, count⟩ := settings l
    rw [counts]
    show (if c = .probeTick then (w.lane l).interval else (w.lane l).intervalCount) = _
    rw [LaneState.interval, mode, params, count]
    by_cases tick : c = .probeTick
    · simp only [tick, true_and, if_true]
    · simp only [tick, false_and, if_false]

end Sys2Proof.Machine

/-! SUPPORT. A frame the gate holds: without SYN and RST the report only marks the record seen, and with room the gate
appends the frame (R98, R99, R101, R103). -/

namespace Sys2Proof.Machine

section

variable {s : State} {l : LaneId} {f : Frame} {g : Segment} {d : ClassDecision}

theorem tracking_of_enforcing {m : Mode} (h : m.enforcing = true) : m.tracking = true := by
  cases m with
  | active | draining => rfl
  | bypass | monitor | failsafe => cases h

/-- The append of a request start, with its decision and its counter (R98). -/
theorem appendEntry_gated (key : FlowKey) : s.appendEntry l (.gated d) key f = s.modLane l fun x =>
    { x with
      queue := x.queue ++ [⟨.gated d, key, f, 0⟩]
      counters := { x.counters with gated := bump x.counters.gated } } := by
  rw [State.appendEntry, State.countLane, modLane_modLane]
  rfl

/-- On an ACTIVE lane a request start that meets entries or fails admission waits, where there is room (R98, R101). -/
theorem gateArrival_gates (active : (s.lane l).mode = .active) (free : s.holds l g.key = false)
    (waits : (s.lane l).queue ≠ [] ∨ s.passesAdmission l g.key d.cost = false) (room : s.roomFor l f = true) :
    s.gateArrival l g f true d = s.appendEntry l (.gated d) g.key f := by
  have held : (s.lane l).mode = .active ∧ ¬ ((s.lane l).queue = [] ∧ s.passesAdmission l g.key d.cost = true) := by
    refine ⟨active, fun ⟨empty, passes⟩ => ?_⟩
    obtain more | fails := waits
    · exact more empty
    · exact nomatch fails.symm.trans passes
  rw [State.gateArrival, free, Bool.and_false, if_neg Bool.false_ne_true, if_pos rfl, if_pos held, State.hold,
    if_pos room]

/-- A segment of the station without SYN and RST marks its record seen, which hands nothing on, and comes to the gate
(R14, R59, R68). -/
theorem exec_outbound_plain (clocked : s.clocked = true) (tcp : s.outboundTcp f g)
    (tracks : (s.lane l).mode.tracking = true) (syn : g.syn = false) (rst : g.rst = false) {u : State}
    (seen : u = s.modRecord l g.key FlowRecord.markSeen) :
    exec (.outboundArrival l f) s =
      .next (u.gateArrival l g f (u.requestStart l g (s.lookup l g)) (s.lookup l g)) := by
  have report : s.reportSegment l g = u :=
    (reportSegment_plain (direction_of_segmentOf tcp.2.2) syn rst).trans seen.symm
  have handed : u.handOn l s = u := by rw [seen, handOn_markSeen]
  rw [exec_outbound_tcp clocked tcp, State.outboundSegment, if_pos tracks]
  dsimp only
  rw [report, handed]

/-- A mark of seen opens no request and ends none. -/
theorem closed_of_seen {u : State} (seen : u = s.modRecord l g.key FlowRecord.markSeen)
    (closed : ∀ r : FlowRecord, s.findRecord l g.key = some r → r.requestOpen = false) :
    ∀ r : FlowRecord, u.findRecord l g.key = some r → r.requestOpen = false := by
  intro r found
  rw [findRecord_of_seen seen] at found
  obtain ⟨r0, found0, rfl⟩ := Option.map_eq_some_iff.mp found
  exact closed r0 found0

end

/-- Settles O15: the gate sees the lane as it stood, and its record marked seen changes neither the request-start
decision nor admission, so the frame is appended as a FOLLOWER or as GATED. -/
theorem heldFrameIsAppended : Obligations.HeldFrameIsAppended := by
  unfold Obligations.HeldFrameIsAppended
  refine ⟨fun l f g s clocked tcp mode syn rst holds room => ?_,
    fun l f g s clocked tcp active syn rst payload request closed free waits room => ?_⟩
  · rw [exec_outbound_plain clocked tcp (tracking_of_enforcing mode) syn rst rfl]
    exact congrArg Host.Outcome.next
      (gateArrival_follows (s := s.modRecord l g.key FlowRecord.markSeen) mode holds room)
  · obtain ⟨u, seen⟩ : ∃ u : State, u = s.modRecord l g.key FlowRecord.markSeen := ⟨_, rfl⟩
    have lane : u.lane l = s.lane l := by rw [seen]; rfl
    have unheld : u.holds l g.key = false := by rw [State.holds, lane]; exact free
    have start : u.requestStart l g (s.lookup l g) = true :=
      requestStart_eq_true (direction_of_segmentOf tcp.2.2) payload request rst unheld (closed_of_seen seen closed)
    have stillWaits : (u.lane l).queue ≠ [] ∨ u.passesAdmission l g.key (s.lookup l g).cost = false := by
      rw [lane, seen, passesAdmission_markSeen]
      exact waits
    have stillRoom : u.roomFor l f = true := by rw [seen]; exact room
    rw [exec_outbound_plain clocked tcp (by rw [active]; rfl) syn rst seen, start,
      gateArrival_gates (lane ▸ active) unheld stillWaits stillRoom, appendEntry_gated, seen]
    rfl

end Sys2Proof.Machine

/-! SUPPORT. The window rewriter: the fields a rewritten frame carries, the outcome of Table 7-1 by the record, the edge
term and the right edge shown, and the checksum modulo 65535 (R122 to R132). -/

namespace Sys2Proof.Machine

/-! ### The fields of a rewritten frame -/

theorem windowField_lt (f : Frame) (g : Segment) : windowField f g < 65536 := fieldAt_lt f (g.tcpAt + 14) 2

theorem fieldAt_withFcs {c : List Byte} {off n : Nat} (h : off + n ≤ c.length) :
    fieldAt (withFcs c) off n = fieldAt c off n := by
  rw [fieldAt, fieldAt, withFcs, bytesAt_congr fun i _ lt => List.getElem?_append_left (by omega)]

/-- A field put and read back (R182). -/
theorem fieldAt_putBytes_same {bs : List Byte} {off : Nat} (within : off ≤ bs.length) (n v : Nat) :
    fieldAt (putBytes bs off (beBytes n v)) off n = v % 256 ^ n := by
  have put := bytesAt_putBytes (new := beBytes n v) within
  rw [beBytes_length] at put
  rw [fieldAt, put, beNat_beBytes]

/-- A field before the bytes replaced stands. -/
theorem fieldAt_putBytes_before {bs new : List Byte} {off place n : Nat} (within : off ≤ bs.length)
    (before : place + n ≤ off) :
    fieldAt (putBytes bs off new) place n = fieldAt bs place n := by
  rw [fieldAt, fieldAt, bytesAt_congr fun i _ lt => getElem?_putBytes within (.inl (by omega))]

section

variable {s : State} {l : LaneId} {f : Frame} {g : Segment}

/-- The window field put into the contents leaves their length, for the TCP header lies before the FCS. -/
theorem length_putWindow (segment : segmentOf .outbound f = some g) (window : Nat) :
    (putBytes (contentsOf f) (g.tcpAt + 14) (beBytes 2 window)).length = f.length - 4 := by
  have within := tcpAt_within segment
  rw [length_putBytes (by rw [beBytes_length, length_contentsOf]; omega), length_contentsOf]

/-- A field of the TCP header's first 20 bytes is not reached by the new FCS. -/
theorem fieldAt_rewriteFrame (segment : segmentOf .outbound f = some g) {window off n : Nat}
    (within : off + n ≤ g.tcpAt + 20) {y : BitVec 16}
    (sum : y = updateChecksum (tcpChecksum f g) (BitVec.ofNat 16 (windowField f g)) (BitVec.ofNat 16 window)) :
    fieldAt (rewriteFrame f g window) off n =
      fieldAt (putBytes (putBytes (contentsOf f) (g.tcpAt + 14) (beBytes 2 window)) (g.tcpAt + 16) (beBytes 2 y.toNat))
        off n := by
  subst sum
  have header := tcpAt_within segment
  have size := length_putWindow segment window
  refine fieldAt_withFcs ?_
  rw [length_putBytes (by rw [beBytes_length, size]; omega), size]
  omega

/-- The rewritten frame carries the window written (R130). -/
theorem windowField_rewriteFrame (segment : segmentOf .outbound f = some g) {window : Nat} (small : window < 65536) :
    windowField (rewriteFrame f g window) g = window := by
  have header := tcpAt_within segment
  rw [windowField, fieldAt_rewriteFrame segment (by omega) rfl,
    fieldAt_putBytes_before (by rw [length_putWindow segment]; omega) (by omega),
    fieldAt_putBytes_same (by rw [length_contentsOf]; omega)]
  exact Nat.mod_eq_of_lt small

/-- The rewritten frame carries the checksum updated for the window written (R131). -/
theorem tcpChecksum_rewriteFrame (segment : segmentOf .outbound f = some g) (window : Nat) :
    tcpChecksum (rewriteFrame f g window) g =
      updateChecksum (tcpChecksum f g) (BitVec.ofNat 16 (windowField f g)) (BitVec.ofNat 16 window) := by
  have header := tcpAt_within segment
  rw [tcpChecksum, fieldAt_rewriteFrame segment (by omega) rfl,
    fieldAt_putBytes_same (by rw [length_putWindow segment]; omega)]
  rw [show (256 : Nat) ^ 2 = 2 ^ 16 from rfl, Nat.mod_eq_of_lt (BitVec.isLt _), BitVec.ofNat_toNat, BitVec.setWidth_eq]

/-! ### What the rewriter does with a segment -/

/-- The rewriter's event by the outcome of Table 7-1. -/
theorem rewrite_eq (s : State) (l : LaneId) (segment : segmentOf .outbound f = some g) :
    (rewriteOutcome (s.findRecord l g.key) g f = .pass → s.rewrite l f = (f, s)) ∧
    (rewriteOutcome (s.findRecord l g.key) g f = .unscaled → s.rewrite l f = (f, s.countLane l .unscaled)) ∧
    (∀ edge, rewriteOutcome (s.findRecord l g.key) g f = .keep edge → s.rewrite l f = (f, s.setEdge l g.key edge)) ∧
    ∀ window edge, rewriteOutcome (s.findRecord l g.key) g f = .lower window edge →
      s.rewrite l f = (rewriteFrame f g window, (s.setEdge l g.key edge).countLane l .lowered) := by
  rw [State.rewrite, segment]
  dsimp only
  refine ⟨fun h => ?_, fun h => ?_, fun edge h => ?_, fun window edge h => ?_⟩
  all_goals rw [h]

/-- A frame the rewriter changes is its segment rewritten with a lower window (R126, R130). -/
theorem rewrite_changed (segment : segmentOf .outbound f = some g) (changed : (s.rewrite l f).1 ≠ f) :
    ∃ window, window < windowField f g ∧ (s.rewrite l f).1 = rewriteFrame f g window := by
  obtain ⟨pass, unscaled, keep, lower⟩ := rewrite_eq s l segment
  cases h : rewriteOutcome (s.findRecord l g.key) g f with
  | pass => exact absurd (by rw [pass h]) changed
  | unscaled => exact absurd (by rw [unscaled h]) changed
  | keep edge => exact absurd (by rw [keep edge h]) changed
  | lower window edge => exact ⟨window, (rewriteOutcome_edge.2 window edge h).2, by rw [lower window edge h]⟩

/-- A segment the rewriter does not pass by, on a record of unknown scale (R124). -/
theorem rewriteOutcome_unscaled {r : FlowRecord} (ack : g.ack = true) (syn : g.syn = false) (rst : g.rst = false)
    (scale : r.scale = none) : rewriteOutcome (some r) g f = .unscaled := by
  simp [rewriteOutcome, ack, syn, rst, scale]

/-- On a record of known scale the window is kept where the record is inactive or the computed field is not below the
station's, and otherwise lowered to it (R125, R126). -/
theorem rewriteOutcome_scaled {r : FlowRecord} {sc out : Nat} (ack : g.ack = true) (syn : g.syn = false)
    (rst : g.rst = false) (scale : r.scale = some sc)
    (computed : out = windowOut r.grant sc (windowField f g) r.lastEdge (ackNumber f g)) :
    rewriteOutcome (some r) g f =
      if r.active = true ∧ out < windowField f g then .lower out (rightEdge (ackNumber f g) out sc)
      else .keep (rightEdge (ackNumber f g) (windowField f g) sc) := by
  cases active : r.active <;> simp [rewriteOutcome, ack, syn, rst, scale, active, computed]

/-- However the rewriter leaves a segment's frame: its length, no higher window, a good FCS where it changed, and every
byte but the three fields. -/
theorem rewrite_frame (segment : segmentOf .outbound f = some g) :
    (s.rewrite l f).1.length = f.length ∧ windowField (s.rewrite l f).1 g ≤ windowField f g ∧
    ((s.rewrite l f).1 ≠ f → (s.rewrite l f).1.drop (f.length - 4) = fcsBytes (contentsOf (s.rewrite l f).1)) ∧
    ∀ i : Nat, i < f.length - 4 → (i < g.tcpAt + 14 ∨ g.tcpAt + 18 ≤ i) → (s.rewrite l f).1[i]? = f[i]? := by
  obtain same | ⟨g', segment', length, lower, fcs, stands⟩ := leavesAs_rewrite s l f
  · rw [same]
    exact ⟨rfl, le_rfl, fun changed => absurd rfl changed, fun _ _ _ => rfl⟩
  · obtain rfl : g' = g := Option.some.inj (segment'.symm.trans segment)
    exact ⟨length, lower.le, fun _ => fcs, stands⟩

end

/-- Settles O18: the frame as `leavesAs` says, and each row of Table 7-1 by its outcome. -/
theorem rewriterChangesThreeFieldsOnly : Obligations.RewriterChangesThreeFieldsOnly := by
  unfold Obligations.RewriterChangesThreeFieldsOnly
  refine ⟨fun s l f g segment => rewrite_frame segment, fun s l f noSegment => by rw [State.rewrite, noSegment],
    fun s l f g segment => ⟨fun passed => ?_, fun r found ack syn rst => ?_⟩⟩
  · obtain ack | syn | rst | absent := passed
    · exact rewrite_pass segment (.inl ack)
    · exact rewrite_pass segment (.inr (.inl syn))
    · exact rewrite_pass segment (.inr (.inr rst))
    · exact rewrite_of_absent segment absent
  · obtain ⟨-, unscaled, keep, lower⟩ := rewrite_eq s l segment
    rw [found] at unscaled keep lower
    refine ⟨fun scale => unscaled (rewriteOutcome_unscaled ack syn rst scale), fun sc out scale computed => ?_⟩
    have outcome := rewriteOutcome_scaled ack syn rst scale computed
    refine ⟨fun kept => keep _ (outcome.trans (if_neg ?_)), fun active below => ?_⟩
    · rintro ⟨active, below⟩
      obtain inactive | above := kept
      · exact nomatch inactive.symm.trans active
      · exact absurd below (Nat.not_lt.mpr above)
    · rw [lower _ _ (outcome.trans (if_pos ⟨active, below⟩))]
      exact ⟨windowField_rewriteFrame segment (below.trans (windowField_lt f g)), rfl⟩

/-! ### The edge term and the right edge shown -/

/-- The edge term is the least number of units that reaches from the acknowledgement to the last edge (R127). -/
theorem edgeTerm_le_iff (u ack : SeqNum) (scale m : Nat) :
    edgeTerm (some u) ack scale ≤ m ↔ (u - ack).toInt ≤ (m * 2 ^ scale : Nat) := by
  have unit : 0 < 2 ^ scale := Nat.two_pow_pos scale
  rw [edgeTerm, Nat.div_le_iff_le_mul_add_pred unit, Nat.mul_comm m]
  omega

/-- A right edge less than 2^31 bytes from the acknowledgement lies at or right of `u` exactly when it reaches `u` and
lies less than 2^31 bytes right of it. -/
theorem rightEdge_sub_nonneg_iff {ack : SeqNum} (u : SeqNum) {window scale : Nat} (near : window * 2 ^ scale < 2 ^ 31) :
    0 ≤ (rightEdge ack window scale - u).toInt ↔
      (u - ack).toInt ≤ (window * 2 ^ scale : Nat) ∧ (window * 2 ^ scale : Nat) < (u - ack).toInt + 2 ^ 31 := by
  have regroup : rightEdge ack window scale - u = BitVec.ofNat 32 (window * 2 ^ scale) - (u - ack) := by
    rw [rightEdge]; bv_omega
  have least := BitVec.le_toInt (u - ack)
  have most := BitVec.toInt_lt (x := u - ack)
  rw [regroup, BitVec.toInt_sub]
  have value : (BitVec.ofNat 32 (window * 2 ^ scale)).toInt = (window * 2 ^ scale : Nat) := by
    rw [BitVec.toInt_ofNat']
    exact Int.bmod_eq_of_le (by omega) (by omega)
  rw [value, Int.bmod_def]
  generalize window * 2 ^ scale = bytes at *
  generalize (u - ack).toInt = gap at *
  omega

/-- The last edge, where the station's own field does not fall left of it, is not withdrawn by a field that reaches it
(R129). -/
theorem rightEdge_not_withdrawn {ack u : SeqNum} {window fin scale : Nat} (near : fin * 2 ^ scale < 2 ^ 31)
    (lower : window ≤ fin) (reach : (u - ack).toInt ≤ (window * 2 ^ scale : Nat))
    (shown : 0 ≤ (rightEdge ack fin scale - u).toInt) : 0 ≤ (rightEdge ack window scale - u).toInt := by
  have bytes : window * 2 ^ scale ≤ fin * 2 ^ scale := Nat.mul_le_mul_right _ lower
  obtain ⟨-, close⟩ := (rightEdge_sub_nonneg_iff u near).mp shown
  exact (rightEdge_sub_nonneg_iff u (bytes.trans_lt near)).mpr ⟨reach, by omega⟩

/-- The largest field at the largest scale stays within the signed comparison. -/
theorem window_near {fin scale : Nat} (legal : scale ≤ 14) (field : fin ≤ 65535) : fin * 2 ^ scale < 2 ^ 31 :=
  calc fin * 2 ^ scale ≤ 65535 * 2 ^ 14 := Nat.mul_le_mul field (Nat.pow_le_pow_right (by decide) legal)
    _ < 2 ^ 31 := by decide

/-- Settles O19: the formula of R127 with the edge term as a least number of units, of which each bound follows. -/
theorem windowKeepsTheEdgeAlreadyShown : Obligations.WindowKeepsTheEdgeAlreadyShown := by
  unfold Obligations.WindowKeepsTheEdgeAlreadyShown
  intro grant scale fin lastEdge ack legal field
  have formula : windowOut grant scale fin lastEdge ack =
      min fin (max (max (grant / 2 ^ scale) (edgeTerm lastEdge ack scale)) 1) := rfl
  refine ⟨⟨edgeTerm lastEdge ack scale, formula, ?_, ?_⟩, ?_, ?_, ?_, ?_⟩
  · rintro rfl
    rfl
  · rintro u rfl
    have least := edgeTerm_le_iff u ack scale
    refine ⟨fun left => Nat.le_zero.mp ((least 0).mpr ?_), (least _).mp le_rfl, fun m => (least m).mpr⟩
    rwa [Nat.zero_mul]
  · rw [formula]; omega
  · rw [formula]; omega
  · rw [formula]; omega
  · rintro u rfl shown
    have near := window_near legal field
    have least := edgeTerm_le_iff u ack scale
    have reached : edgeTerm (some u) ack scale ≤ fin :=
      (least fin).mpr ((rightEdge_sub_nonneg_iff u near).mp shown).1
    exact rightEdge_not_withdrawn near (by rw [formula]; omega) ((least _).mp (by rw [formula]; omega)) shown

/-! ### The checksum -/

/-- One's-complement addition as a number: a sum of two 16-bit words with its carry added back has no second carry. -/
theorem onesAdd_toNat (a b : BitVec 16) :
    (onesAdd a b).toNat = (a.toNat + b.toNat) % 65536 + (a.toNat + b.toNat) / 65536 := by
  have := a.isLt
  have := b.isLt
  rw [onesAdd, BitVec.toNat_ofNat]
  omega

/-- One's-complement addition is addition modulo 65535. -/
theorem onesAdd_mod (a b : BitVec 16) : (onesAdd a b).toNat % 65535 = (a.toNat + b.toNat) % 65535 := by
  rw [onesAdd_toNat]
  omega

/-- The updated checksum makes up for the change of the window field (R131). -/
theorem updateChecksum_mod (y m m' : BitVec 16) :
    ((updateChecksum y m m').toNat + m'.toNat) % 65535 = (y.toNat + m.toNat) % 65535 := by
  have inner := onesAdd_mod (~~~ y) (~~~ m)
  have outer := onesAdd_mod (onesAdd (~~~ y) (~~~ m)) m'
  have := (onesAdd (onesAdd (~~~ y) (~~~ m)) m').isLt
  rw [updateChecksum]
  simp only [BitVec.toNat_not] at inner ⊢
  omega

/-- Settles O20: each one's-complement addition is one modulo 65535, and a changed frame is `rewriteFrame`. -/
theorem checksumChangesWithTheWindow : Obligations.ChecksumChangesWithTheWindow := by
  unfold Obligations.ChecksumChangesWithTheWindow
  refine ⟨fun y m m' => ⟨rfl, onesAdd_toNat, updateChecksum_mod y m m'⟩, fun s l f g segment changed => ?_⟩
  obtain ⟨window, lower, frame⟩ := rewrite_changed segment changed
  rw [frame, tcpChecksum_rewriteFrame segment, windowField_rewriteFrame segment (lower.trans (windowField_lt f g))]

end Sys2Proof.Machine

/-! SUPPORT. The probe's requests and the keepalive monitor: how each operation keeps them legal, and that every step does
(R141 to R151, R162, R164, R173 to R175). -/

namespace Sys2Proof.Machine

section

variable {s t u : State} {l : LaneId}

/-! ### Requests, grants and lanes that leave -/

/-- The requests of a probe are legal, whether or not an IDLE engine has been granted (R141, R144). -/
structure State.ProbeAsked (s : State) : Prop where
  once : (s.probe.queue.map (·.lane)).Nodup
  queued : ∀ r ∈ s.probe.queue, (s.lane r.lane).mode.served = true
  serves : ∀ r ∈ s.probe.engine.serving.toList, (s.lane r.lane).mode.served = true

theorem probeLegal_of_empty (queue : s.probe.queue = []) (idle : s.probe.engine = .idle) : s.ProbeLegal := by
  refine ⟨?_, ?_, ?_, fun _ => queue⟩
  · rw [queue]; exact List.nodup_nil
  · rw [queue]; exact nofun
  · rw [idle]; exact nofun

/-- The grant leaves no request waiting behind an IDLE engine (R146). -/
theorem probeLegal_grantProbe (h : s.ProbeAsked) : s.grantProbe.ProbeLegal := by
  obtain ⟨once, queued, serves⟩ := h
  by_cases idle : s.probe.engine = .idle
  · obtain ⟨p, granted⟩ := probeOnly_grantProbe s
    have probe : p = _ := (congrArg State.probe granted).symm.trans (probe_grantProbe_of_idle idle queued)
    rw [granted]
    cases queue : s.probe.queue with
    | nil =>
      rw [queue] at probe
      exact probeLegal_of_empty (by rw [probe]; exact queue) (by rw [probe]; exact idle)
    | cons r rest =>
      rw [queue] at probe once queued
      subst probe
      refine ⟨(List.nodup_cons.mp once).2, fun x hx => queued x (List.mem_cons_of_mem _ hx), fun x hx => ?_, nofun⟩
      obtain rfl := List.mem_singleton.mp hx
      exact queued x List.mem_cons_self
  · rw [State.grantProbe, if_neg idle]
    exact ⟨once, queued, serves, fun e => absurd e idle⟩

theorem probeLegal_freeProbe (once : (s.probe.queue.map (·.lane)).Nodup)
    (queued : ∀ r ∈ s.probe.queue, (s.lane r.lane).mode.served = true) : s.freeProbe.ProbeLegal :=
  probeLegal_grantProbe (s := { s with probe := ⟨s.probe.queue, .idle, 0, 0, true⟩ }) ⟨once, queued, nofun⟩

/-- A staged timebase abandons the probe and grants the engine anew (R151). -/
theorem probeLegal_abandonProbe (h : s.ProbeLegal) : s.abandonProbe.ProbeLegal := by
  unfold State.abandonProbe
  split
  · exact probeLegal_freeProbe h.1 h.2.1
  · exact h

/-- Merging a request into a queue changes no request's lane (R143). -/
theorem map_lane_join (q : List ProbeRequest) (l : LaneId) (k : ProbeKind) :
    (q.map fun r => if r.lane = l then { r with kind := r.kind.join k } else r).map (·.lane) = q.map (·.lane) := by
  rw [List.map_map]
  refine List.map_congr_left fun r _ => ?_
  dsimp only [Function.comp_apply]
  split <;> rfl

/-- A served lane asks once: its request is merged, or joins the queue and may be granted at once (R143, R146). -/
theorem probeLegal_requestProbe (h : s.ProbeLegal) (served : (s.lane l).mode.served = true) (k : ProbeKind) :
    (s.requestProbe l k).ProbeLegal := by
  obtain ⟨once, queued, serves, granted⟩ := h
  by_cases merges : l ∈ s.probe.queue.map (·.lane)
  · rw [State.requestProbe, if_pos ((probeQueued_iff s l).mpr merges)]
    refine ⟨(map_lane_join _ l k).symm ▸ once, fun r hr => ?_, serves, fun idle => List.map_eq_nil_iff.mpr (granted idle)⟩
    obtain ⟨x, hx, rfl⟩ := List.mem_map.mp hr
    have own := queued x hx
    split
    · exact own
    · exact own
  · rw [requestProbe_of_new merges]
    refine probeLegal_grantProbe ⟨?_, fun r hr => ?_, serves⟩
    · rw [List.map_append, List.map_singleton]
      refine List.nodup_append.mpr ⟨once, List.nodup_singleton l, fun a ha b hb e => merges ?_⟩
      rw [e, List.mem_singleton.mp hb] at ha
      exact ha
    · obtain old | new := List.mem_append.mp hr
      · exact queued r old
      · rw [List.mem_singleton.mp new]
        exact served

/-- A lane leaves the probe, in whatever mode, while the other served lanes stay served (R144). -/
theorem probeLegal_leaveProbe (h : s.ProbeLegal) (probe : u.probe = s.probe)
    (others : ∀ k : LaneId, k ≠ l → (s.lane k).mode.served = true → (u.lane k).mode.served = true) :
    (u.leaveProbe l).ProbeLegal := by
  obtain ⟨once, queued, serves, granted⟩ := h
  obtain ⟨q, hq⟩ : ∃ q : List ProbeRequest, q = u.probe.queue.filter fun r => r.lane ≠ l := ⟨_, rfl⟩
  have once' : (q.map (·.lane)).Nodup := by
    rw [hq, probe]
    exact once.sublist (List.filter_sublist.map _)
  have queued' : ∀ r ∈ q, (u.lane r.lane).mode.served = true := fun r hr => by
    rw [hq, probe, List.mem_filter, decide_eq_true_eq] at hr
    exact others r.lane hr.2 (queued r hr.1)
  have granted' : u.probe.engine = .idle → q = [] := fun idle => by
    rw [hq, probe, granted (probe ▸ idle)]
    rfl
  have other : (∀ r ∈ u.probe.engine.serving.toList, r.lane ≠ l) →
      State.ProbeLegal { u with probe := { u.probe with queue := q } } := fun ne =>
    ⟨once', queued', fun r hr => others r.lane (ne r hr) (serves r (probe ▸ hr)), granted'⟩
  unfold State.leaveProbe
  rw [← hq]
  dsimp only
  split
  · rename_i r serving
    split
    · exact probeLegal_freeProbe (s := { u with probe := { u.probe with queue := q } }) once' queued'
    · rename_i ne
      refine other fun x hx => ?_
      rw [serving] at hx
      rwa [List.mem_singleton.mp hx]
  · rename_i serving
    exact other (by rw [serving]; exact nofun)

/-! ### Events that leave the requests and the monitor -/

/-- An event that leaves the requests, queued and served, and the monitor. -/
structure State.ServiceStands (s t : State) : Prop where
  queue : t.probe.queue = s.probe.queue
  serving : t.probe.engine.serving = s.probe.engine.serving
  keepalive : t.keepalive = s.keepalive

theorem State.ServiceStands.of_eq (probe : t.probe = s.probe) (keepalive : t.keepalive = s.keepalive) :
    s.ServiceStands t := ⟨by rw [probe], by rw [probe], keepalive⟩

theorem State.ServiceStands.refl (s : State) : s.ServiceStands s := .of_eq rfl rfl

theorem State.ServiceStands.trans (h : s.ServiceStands t) (h' : t.ServiceStands u) : s.ServiceStands u :=
  ⟨h'.queue.trans h.queue, h'.serving.trans h.serving, h'.keepalive.trans h.keepalive⟩

theorem State.LaneEvent.serviceStands (h : s.LaneEvent l t) : s.ServiceStands t :=
  .of_eq (congrArg State.probe h.rest :) (congrArg State.keepalive h.rest :)

theorem State.SameRest.serviceStands (h : s.SameRest t) : s.ServiceStands t :=
  .of_eq (congrArg State.probe h :) (congrArg State.keepalive h :)

theorem serviceStands_ite {c : Prop} [Decidable c] (h : s.ServiceStands t) : s.ServiceStands (if c then t else s) := by
  split
  · exact h
  · exact .refl s

theorem idle_of_serving {e e' : ProbeEngine} (serving : e'.serving = e.serving) (idle : e' = .idle) : e = .idle := by
  subst idle
  cases e with
  | idle => rfl
  | waiting r => cases serving
  | measuring r => cases serving

/-- Where the served lanes stay served, the requests stay legal. -/
theorem State.ServiceStands.probeLegal (h : s.ServiceStands t)
    (served : ∀ k : LaneId, (s.lane k).mode.served = true → (t.lane k).mode.served = true) (legal : s.ProbeLegal) :
    t.ProbeLegal := by
  obtain ⟨once, queued, serves, granted⟩ := legal
  rw [State.ProbeLegal, h.queue, h.serving]
  exact ⟨once, fun r hr => served _ (queued r hr), fun r hr => served _ (serves r hr),
    fun idle => granted (idle_of_serving h.serving idle)⟩

/-- An event of one lane that keeps it served if it was. -/
theorem State.LaneEvent.probeLegal (h : s.LaneEvent l t)
    (own : (s.lane l).mode.served = true → (t.lane l).mode.served = true) (legal : s.ProbeLegal) : t.ProbeLegal :=
  h.serviceStands.probeLegal (fun k => by
    by_cases e : k = l
    · exact e ▸ own
    · rw [h.lanes k e]; exact id) legal

/-- The keepalive monitor and the probe, both legal (R141, R144, R146, R173). -/
structure State.ServiceLegal (s : State) : Prop where
  monitor : s.KeepaliveLegal
  probe : s.ProbeLegal

/-- An event that leaves the monitor, and a probe that is legal by itself. -/
theorem State.ServiceLegal.of_keepalive (h : s.ServiceLegal) (keepalive : t.keepalive = s.keepalive)
    (probe : t.ProbeLegal) : t.ServiceLegal :=
  ⟨by rw [State.KeepaliveLegal, keepalive]; exact h.monitor, probe⟩

theorem State.ServiceLegal.stands (h : s.ServiceLegal) (stands : s.ServiceStands t)
    (served : ∀ k : LaneId, (s.lane k).mode.served = true → (t.lane k).mode.served = true) : t.ServiceLegal :=
  h.of_keepalive stands.keepalive (stands.probeLegal served h.probe)

theorem serviceLegal_ite {c : Prop} [Decidable c] (h : s.ServiceLegal) (taken : t.ServiceLegal) :
    (if c then t else s).ServiceLegal := by
  split
  · exact taken
  · exact h

/-- The values of power-on (R141, R173). -/
theorem serviceLegal_of_reset (probe : t.probe = Probe.reset) (keepalive : t.keepalive = Keepalive.reset) :
    t.ServiceLegal :=
  ⟨by rw [State.KeepaliveLegal, keepalive]; decide, probeLegal_of_empty (by rw [probe]; rfl) (by rw [probe]; rfl)⟩

/-! ### The probe's tick and the timer's -/

theorem State.OutsideStands.keepalive (h : s.OutsideStands t) : t.keepalive = s.keepalive := (congrArg State.keepalive h :)

/-- A MEASURING engine before its end tick counts one window tick and tests the backlog (R149). -/
theorem engineTick_of_window {r : ProbeRequest} (engine : s.probe.engine = .measuring r)
    (goes : ¬ r.kind.window ≤ s.probe.windowTicks + 1) : s.engineTick = s.windowEnd r := by
  unfold State.engineTick
  rw [engine]
  exact if_neg goes

theorem outside_completeProbe (s : State) (r : ProbeRequest) : s.OutsideStands (s.completeProbe r) := by
  obtain ⟨v, hv⟩ : ∃ v : State, v = (s.measured r).latchEvent .probe := ⟨_, rfl⟩
  have event : s.LaneEvent r.lane v := hv ▸ (laneEvent_measured s r).trans (laneEvent_latchEvent _ r.lane .probe)
  have whole : s.completeProbe r = State.grantProbe { v with probe := { v.probe with engine := .idle } } := by
    rw [hv]
    rfl
  rw [whole]
  exact event.outside.trans (State.ProbeOnly.trans ⟨_, rfl⟩ (probeOnly_grantProbe _)).outside

theorem outside_engineTick (s : State) : s.OutsideStands s.engineTick := by
  have probe : ∀ p : Probe, s.OutsideStands { s with probe := p } := fun p => State.ProbeOnly.outside ⟨p, rfl⟩
  unfold State.engineTick
  split
  · rfl
  · exact probe _
  · unfold State.windowTick
    dsimp only
    split
    · exact (probe _).trans (outside_completeProbe _ _)
    · exact probe _

theorem outside_intervalTick (k : LaneId) (s : State) : s.OutsideStands (State.intervalTick k s) := by
  have counted : ∀ n : Nat, s.OutsideStands (s.modLane k fun x => { x with intervalCount := n }) := fun n =>
    (laneEvent_modLane s k _).outside
  unfold State.intervalTick
  split
  · split
    · exact (counted 0).trans (probeOnly_requestProbe _ k .short).outside
    · exact counted ((s.lane k).intervalCount + 1)
  · rfl

/-- What the engine's tick leaves of every lane's mode, parameters and interval count (R152). -/
theorem settings_engineTick (s : State) (l : LaneId) : (s.engineTick.lane l).mode = (s.lane l).mode ∧
    (s.engineTick.lane l).params = (s.lane l).params ∧ (s.engineTick.lane l).intervalCount = (s.lane l).intervalCount := by
  cases engine : s.probe.engine with
  | idle => rw [State.engineTick, engine]; exact ⟨rfl, rfl, rfl⟩
  | waiting r => rw [State.engineTick, engine]; exact ⟨rfl, rfl, rfl⟩
  | measuring r =>
    by_cases ends : r.kind.window ≤ s.probe.windowTicks + 1
    · obtain ⟨v, ticked, lanes, -⟩ := engineTick_of_end engine ends
      rw [ticked, ((probeOnly_grantProbe v).spares l).lane, State.lane_congr lanes]
      exact settings_measured (s.windowEnd r) r l
    · rw [engineTick_of_window engine ends]
      exact ⟨rfl, rfl, rfl⟩

theorem probeLegal_engineTick (h : s.ProbeLegal) : s.engineTick.ProbeLegal := by
  have served : ∀ k : LaneId, (s.lane k).mode.served = true → (s.engineTick.lane k).mode.served = true := fun k => by
    rw [(settings_engineTick s k).1]
    exact id
  have stands : s.ServiceStands s.engineTick → s.engineTick.ProbeLegal := fun stands => stands.probeLegal served h
  cases engine : s.probe.engine with
  | idle => exact stands (by rw [State.engineTick, engine]; exact .refl s)
  | waiting r =>
    refine stands ?_
    rw [State.engineTick, engine]
    exact ⟨rfl, by rw [engine]; rfl, rfl⟩
  | measuring r =>
    by_cases ends : r.kind.window ≤ s.probe.windowTicks + 1
    · obtain ⟨v, ticked, -, -, -, idle, queue⟩ := engineTick_of_end engine ends
      have lane : ∀ k : LaneId, s.engineTick.lane k = v.lane k := fun k => by
        rw [ticked]
        exact ((probeOnly_grantProbe v).spares k).lane
      rw [ticked]
      refine probeLegal_grantProbe ⟨by rw [queue]; exact h.1, fun r hr => ?_, by rw [idle]; exact nofun⟩
      rw [← lane]
      exact served _ (h.2.1 r (queue ▸ hr))
    · refine stands ?_
      rw [engineTick_of_window engine ends]
      exact ⟨rfl, rfl, rfl⟩

theorem probeLegal_intervalTick (k : LaneId) (h : s.ProbeLegal) : (State.intervalTick k s).ProbeLegal := by
  have counted : ∀ n : Nat, State.ProbeLegal (s.modLane k fun x => { x with intervalCount := n }) := fun n =>
    (laneEvent_modLane s k _).probeLegal (by rw [State.lane_modLane_same]; exact id) h
  unfold State.intervalTick
  split
  · rename_i counts
    split
    · refine probeLegal_requestProbe (counted 0) ?_ .short
      rw [State.lane_modLane_same]
      exact counts.1 ▸ rfl
    · exact counted ((s.lane k).intervalCount + 1)
  · exact h

theorem serviceLegal_timerTick (h : s.ServiceLegal) : s.timerTick.ServiceLegal := by
  unfold State.timerTick
  obtain ⟨u, hu⟩ : ∃ u : State, u = { s with timer := { s.timer with
    prescaleCount := 0, epochCount := 0, epochNumber := (s.timer.epochNumber + 1) % 65536 } } := ⟨_, rfl⟩
  have legal : u.ServiceLegal := hu ▸ ⟨h.monitor, h.probe⟩
  rw [← hu]
  cases staged : u.timer.staged with
  | none =>
    rw [State.takeStaged, staged]
    exact legal
  | some pair =>
    obtain ⟨v, hv⟩ : ∃ v : State, v = { u with timer := { u.timer with
      prescale := pair.1, epochDivisor := pair.2, staged := none } } := ⟨_, rfl⟩
    have rebased : v.rebased.ServiceLegal := by
      refine State.ServiceLegal.stands (s := v) (hv ▸ ⟨legal.monitor, legal.probe⟩)
        (State.SameRest.serviceStands (sameRest_rebased v)) fun k => ?_
      rw [(settings_rebased v k).2.1]
      exact id
    rw [takeStaged_of_some u staged, ← hv]
    exact rebased.of_keepalive (probeOnly_abandonProbe v.rebased).outside.keepalive (probeLegal_abandonProbe rebased.probe)

/-! ### The keepalive monitor -/

theorem probeLegal_expireLane (k : LaneId) (h : s.ProbeLegal) : (State.expireLane k s).ProbeLegal := by
  unfold State.expireLane
  split
  · have released : s.LaneEvent k ((s.failsafeRelease k).setMode k .failsafe .none) :=
      (laneEvent_failsafeRelease s k).trans (laneEvent_modLane _ k _)
    refine probeLegal_leaveProbe h (congrArg State.probe released.rest :) fun j ne => ?_
    rw [released.lanes j ne]
    exact id
  · exact h

theorem probeLegal_expiring (h : s.ProbeLegal) : s.expiring.ProbeLegal := by
  obtain ⟨once, queued, serves, granted⟩ := h
  exact ⟨once, queued, serves, granted⟩

/-- The tracking lanes leave the probe one after another (R144, R175). -/
theorem probeLegal_expire (h : s.ProbeLegal) : s.expire.ProbeLegal := by
  have turns : s.expire = forEachLane State.expireLane s.expiring := rfl
  rw [turns]
  exact forEachLane_keeps (P := State.ProbeLegal) (fun k u => probeLegal_expireLane (s := u) k) (probeLegal_expiring h)

/-- A tick counts a RUNNING monitor to T at most, and there expires it (R174, R175). -/
theorem serviceLegal_monitorTick (h : s.ServiceLegal) : s.monitorTick.ServiceLegal := by
  obtain ⟨⟨off, within, below⟩, probe⟩ := h
  unfold State.monitorTick
  split
  · rename_i running
    have on : s.keepalive.period ≠ 0 := fun e => by rw [off.mpr e] at running; cases running
    have room := below running
    obtain ⟨u, hu⟩ : ∃ u : State, u = { s with keepalive := { s.keepalive with count := s.keepalive.count + 1 } } :=
      ⟨_, rfl⟩
    have legal : u.ProbeLegal := hu ▸ probe
    dsimp only
    rw [← hu]
    split
    · obtain ⟨ls, p, rest⟩ := lanesAndProbe_expire u
      have keepalive : u.expire.keepalive = ⟨s.keepalive.period, s.keepalive.count + 1, .expired⟩ := by
        rw [rest, hu]
        rfl
      refine ⟨?_, probeLegal_expire legal⟩
      rw [State.KeepaliveLegal, keepalive]
      exact ⟨⟨nofun, fun e => absurd e on⟩, room, nofun⟩
    · rename_i goes
      have goes : s.keepalive.count + 1 < s.keepalive.period := by
        simpa [State.expiryNext, running] using goes
      refine ⟨?_, legal⟩
      rw [State.KeepaliveLegal, hu]
      exact ⟨off, goes.le, fun _ => goes⟩
  · exact ⟨⟨off, within, below⟩, probe⟩

/-- KEEPALIVE clears the count and an expiry (R162, R173). -/
theorem keepaliveLegal_clear (s : State) : State.KeepaliveLegal { s with keepalive := s.keepalive.clear } := by
  by_cases zero : s.keepalive.period = 0
  · simp [State.KeepaliveLegal, Keepalive.clear, zero]
  · simp [State.KeepaliveLegal, Keepalive.clear, zero, Nat.pos_of_ne_zero zero]

/-- WRITE-CHIP's T clears the count, and a T of 0 turns the monitor OFF (R164, R173). -/
theorem keepaliveLegal_write (s : State) (period : Nat) :
    State.KeepaliveLegal { s with keepalive := s.keepalive.write period } := by
  by_cases zero : period = 0
  · simp [State.KeepaliveLegal, Keepalive.write, zero]
  · cases state : s.keepalive.state <;>
      simp [State.KeepaliveLegal, Keepalive.write, zero, state, Nat.pos_of_ne_zero zero]

/-! ### SET-LANE-MODE -/

/-- A request that is not refused is for the mode held, or follows one row of the table (R27, R28). -/
theorem requestMode_answer {req : RequestedMode} (h : s.requestMode l req = some u) :
    u = s ∨ s.ModeRow l req.mode u := by
  have allowed : ∀ {p : Prop}, (p → s.requestMode l req = none) → ¬ p := fun refused c => by
    rw [refused c] at h
    cases h
  have taken := allowed requestMode_refused
  have free : s.keepalive.state = .expired → req.mode = .bypass := fun e => by_contra fun ne => taken (.inl ⟨e, ne⟩)
  by_cases held : (s.lane l).mode = req.mode
  · rw [requestMode_held free held] at h
    exact .inl (Option.some.inj h).symm
  · have asks : req.mode = .active → (s.lane l).mode = .draining ∨ (s.lane l).mode = .monitor ∧ 1 ≤ (s.lane l).nMax := by
      intro active
      rw [active] at held taken
      cases mode : (s.lane l).mode with
      | bypass => exact absurd (.inr ⟨rfl, .inl mode⟩) taken
      | monitor =>
        refine .inr ⟨rfl, Nat.one_le_iff_ne_zero.mpr fun none => taken (.inr ⟨rfl, .inr (.inr ⟨mode, none⟩)⟩)⟩
      | active => exact absurd mode held
      | draining => exact .inl rfl
      | failsafe => exact absurd (.inr ⟨rfl, .inr (.inl mode)⟩) taken
    obtain ⟨v, answer, row⟩ := requestMode_row free held asks
    rw [answer] at h
    exact .inr (Option.some.inj h ▸ row)

theorem served_of_leavesDrain {x y : LaneState} (h : x.LeavesDrain y) (served : x.mode.served = true) :
    y.mode.served = true := by
  obtain same | ⟨draining, -⟩ := h
  · rwa [same]
  · rw [draining] at served
    cases served

theorem probeLegal_setMode {m : Mode} {g : DrainTarget} (h : s.ProbeLegal)
    (own : (s.lane l).mode.served = true → m.served = true) : (s.setMode l m g).ProbeLegal :=
  (laneEvent_modLane s l _).probeLegal (by rw [State.lane_modLane_same]; exact own) h

/-- A lane that leaves MONITOR and ACTIVE gives up its request (R144). -/
theorem probeLegal_leaves (h : s.ProbeLegal) (m : Mode) (g : DrainTarget) : ((s.setMode l m g).leaveProbe l).ProbeLegal :=
  probeLegal_leaveProbe h rfl fun k ne => by rw [(spares_setMode s ne m g).lane]; exact id

theorem probeLegal_enterActive (h : s.ProbeLegal) : (s.enterActive l).ProbeLegal := by
  have entered := State.lane_modLane_same s l fun x => { x with mode := .active, target := .none, intervalCount := 0 }
  refine probeLegal_requestProbe ((laneEvent_modLane s l _).probeLegal (fun _ => ?_) h) ?_ .long
  · rw [entered]; rfl
  · rw [entered]; rfl

/-- Each row of the table keeps the requests legal: a lane is served in the mode it enters, or it leaves the probe (R30 to
R32, R144). -/
theorem State.ModeRow.probeLegal {req : Mode} (row : s.ModeRow l req u) (h : s.ProbeLegal) : u.ProbeLegal := by
  cases row with
  | monitors _ =>
    have event : s.LaneEvent l (s.enterMonitor l) :=
      ((laneEvent_removeLaneRecords s l).trans (laneEvent_modLane _ l _)).trans (laneEvent_recompute _ l)
    exact event.probeLegal (fun _ => by rw [(lane_enterMonitor s l).mode]; rfl) h
  | leaves _ => exact probeLegal_leaves h _ _
  | rests old => exact probeLegal_setMode h (by rw [old]; exact nofun)
  | stops _ _ => exact probeLegal_setMode h fun _ => rfl
  | retargets _ old => exact probeLegal_setMode h (by rw [old]; exact nofun)
  | drains _ _ _ =>
    exact (laneEvent_drain _ l).probeLegal (served_of_leavesDrain (drain_leaves _ l).2) (probeLegal_leaves h _ _)
  | activates _ => exact probeLegal_enterActive h
  | returns old =>
    have set : (s.setMode l .active .none).ProbeLegal := probeLegal_setMode h fun _ => rfl
    refine probeLegal_enterActive ((laneEvent_reevaluate _ l).probeLegal ?_ set)
    rw [((stays_reevaluate (l := l) (entries_any (s.setMode l .active .none))).modes l).1]
    exact id

theorem serviceLegal_setLaneMode (p : List Byte) (space : Nat) (h : s.ServiceLegal) :
    (effectSetLaneMode p space s).state.ServiceLegal := by
  unfold effectSetLaneMode
  refine withLength_state h (withLane_state h fun k _ => ?_)
  split
  · exact h
  · refine withSpace_state h ?_
    split
    · rename_i answer
      obtain rfl | row := requestMode_answer answer
      · exact h
      · exact h.of_keepalive row.outside.keepalive (row.probeLegal h.probe)
    · exact h

/-! ### The other commands -/

theorem serviceStands_ackEvents (p : List Byte) (space : Nat) (s : State) :
    s.ServiceStands (effectAckEvents p space s).state := by
  unfold effectAckEvents
  refine withLength_state (.refl s) (withSpace_state (.refl s) ?_)
  obtain ⟨c, hc⟩ : ∃ c : State, c = { s with latch := s.latch &&& ~~~ (BitVec.ofNat 19 (fieldAt p 0 3)) } := ⟨_, rfl⟩
  have cleared : s.ServiceStands c := .of_eq (by rw [hc]) (by rw [hc])
  rw [← hc]
  dsimp only
  have latched : c.ServiceStands (forEachLane (fun l s => s.latchOverload l) c) :=
    forEachLane_keeps (P := c.ServiceStands) (fun k u h => h.trans (laneEvent_latchOverload u k).serviceStands) (.refl c)
  exact cleared.trans latched

theorem serviceStands_writeLaneParams (p : List Byte) (space : Nat) (s : State) :
    s.ServiceStands (effectWriteLaneParams p space s).state := by
  unfold effectWriteLaneParams
  refine withLength_state (.refl s) (withLane_state (.refl s) fun k _ => withSpace_state (.refl s) ?_)
  split
  · exact .refl s
  · dsimp only
    split
    · exact ((laneEvent_modLane s k _).trans (laneEvent_recompute _ k)).serviceStands
    · exact (laneEvent_modLane s k _).serviceStands

theorem serviceStands_readCounters (p : List Byte) (space : Nat) (s : State) :
    s.ServiceStands (effectReadCounters p space s).state := by
  unfold effectReadCounters
  refine withLength_state (.refl s) ?_
  dsimp only
  split
  · unfold readChipCounters
    refine withSpace_state (.refl s) ?_
    dsimp only
    split
    · exact .of_eq rfl rfl
    · exact .refl s
  · refine withLane_state (.refl s) fun k _ => ?_
    unfold readLaneCounters
    refine withSpace_state (.refl s) ?_
    dsimp only
    split
    · exact (laneEvent_modLane s k _).serviceStands
    · exact .refl s

theorem serviceStands_flushFlows (p : List Byte) (space : Nat) (s : State) :
    s.ServiceStands (effectFlushFlows p space s).state := by
  unfold effectFlushFlows
  refine withLength_state (.refl s) (withLane_state (.refl s) fun k _ => withSpace_state (.refl s) ?_)
  split
  · exact .refl s
  · exact ((laneEvent_removeLaneRecords s k).trans (laneEvent_handOn _ k s)).serviceStands

theorem serviceStands_evictFlow (p : List Byte) (space : Nat) (s : State) :
    s.ServiceStands (effectEvictFlow p space s).state := by
  unfold effectEvictFlow
  refine withLength_state (.refl s) (withLane_state (.refl s) fun k _ => ?_)
  split
  · exact .refl s
  · refine withLength_state (.refl s) (withSpace_state (.refl s) ?_)
    split
    · exact ((laneEvent_removeRecord s k _).trans (laneEvent_handOn _ k s)).serviceStands
    · exact .refl s

theorem serviceStands_writeClass (p : List Byte) (space : Nat) (s : State) :
    s.ServiceStands (effectWriteClass p space s).state := by
  unfold effectWriteClass
  refine withLength_state (.refl s) ?_
  split
  · exact .refl s
  · split
    · exact .refl s
    · exact withSpace_state (.refl s) (.of_eq rfl rfl)

theorem serviceLegal_startProbe (p : List Byte) (space : Nat) (h : s.ServiceLegal) :
    (effectStartProbe p space s).state.ServiceLegal := by
  unfold effectStartProbe
  refine withLength_state h (withLane_state h fun k _ => ?_)
  split
  · exact h
  · refine withSpace_state h ?_
    split
    · rename_i served
      exact h.of_keepalive (probeOnly_requestProbe s k _).outside.keepalive (probeLegal_requestProbe h.probe served _)
    · exact h

theorem serviceLegal_writeChip (p : List Byte) (space : Nat) (h : s.ServiceLegal) :
    (effectWriteChip p space s).state.ServiceLegal := by
  unfold effectWriteChip
  refine withLength_state h ?_
  split
  · exact h
  · obtain ⟨once, queued, serves, granted⟩ := h.probe
    exact withSpace_state h ⟨keepaliveLegal_write s _, once, queued, serves, granted⟩

theorem serviceLegal_keepalive (p : List Byte) (space : Nat) (h : s.ServiceLegal) :
    (effectKeepalive p space s).state.ServiceLegal := by
  obtain ⟨once, queued, serves, granted⟩ := h.probe
  exact withSpace_state (P := State.ServiceLegal) h ⟨keepaliveLegal_clear s, once, queued, serves, granted⟩

theorem serviceLegal_chipReset (p : List Byte) (space : Nat) (h : s.ServiceLegal) :
    (effectChipReset p space s).state.ServiceLegal := by
  unfold effectChipReset
  split
  · exact serviceLegal_of_reset rfl rfl
  · exact h

end

end Sys2Proof.Machine

namespace Sys2Proof

/-- The steps that set a lane's mode otherwise than at the end of a drain (R20, R34, R171, R183). -/
def Instr.setsModes : Instr → Bool
  | .powerOn | .rstNAssert | .rstNRelease _ _ _ | .setLaneMode _ | .chipReset _ | .keepaliveTick | .keepaliveExpiry => true
  | _ => false

end Sys2Proof

namespace Sys2Proof.Machine

section

variable {s t : State}

/-- No other step takes a lane out of the probe's service: the end of a drain finds it unserved (R33, R144). -/
theorem served_of_exec {c : Instr} (h : exec c s = .next t) (row : c.setsModes = false) (l : LaneId)
    (served : (s.lane l).mode.served = true) : (t.lane l).mode.served = true := by
  by_contra left
  obtain rfl | rfl | ⟨_, _, _, rfl⟩ | ⟨_, rfl, _⟩ | ⟨_, rfl⟩ | rfl | rfl | ⟨draining, -⟩ :=
    modesChangeOnlyAtNamedEvents c s t l h fun same => left (same ▸ served)
  case inr.inr.inr.inr.inr.inr.inr => rw [draining] at served; cases served
  all_goals cases row

theorem serviceLegal_outcome (c : Instr) (space : Nat) (h : s.ServiceLegal)
    (served : c.setsModes = false → ∀ l : LaneId, (s.lane l).mode.served = true →
      ((c.outcome space s).state.lane l).mode.served = true) : (c.outcome space s).state.ServiceLegal := by
  have stands : c.setsModes = false → s.ServiceStands (c.outcome space s).state →
      (c.outcome space s).state.ServiceLegal := fun row stands => h.stands stands (served row)
  cases c
  case keepalive p => exact serviceLegal_keepalive p space h
  case readChip p => exact withSpace_state h h
  case writeChip p => exact serviceLegal_writeChip p space h
  case setTimebase p =>
    exact withLength_state h (withSpace_state h (h.stands (.of_eq rfl rfl) fun _ => id))
  case ackEvents p => exact stands rfl (serviceStands_ackEvents p space s)
  case setLaneMode p => exact serviceLegal_setLaneMode p space h
  case writeLaneParams p => exact stands rfl (serviceStands_writeLaneParams p space s)
  case readLane p => exact withLength_state h (withLane_state h fun _ _ => withSpace_state h h)
  case readCounters p => exact stands rfl (serviceStands_readCounters p space s)
  case flushFlows p => exact stands rfl (serviceStands_flushFlows p space s)
  case releaseLane p =>
    exact stands rfl (withLength_state (.refl s) (withLane_state (.refl s) fun k _ =>
      withSpace_state (.refl s) (laneEvent_releaseLane s k).serviceStands))
  case startProbe p => exact serviceLegal_startProbe p space h
  case writeClass p => exact stands rfl (serviceStands_writeClass p space s)
  case readClass p => exact (state_readClass p space).symm ▸ h
  case readFlows p => exact (state_readFlows p space).symm ▸ h
  case evictFlow p => exact stands rfl (serviceStands_evictFlow p space s)
  case chipReset p => exact serviceLegal_chipReset p space h
  all_goals exact h

/-! ### Frames -/

theorem serviceStands_receiveControl (s : State) (l : LaneId) (f : Frame) : s.ServiceStands (s.receiveControl l f) := by
  obtain ⟨c, e | e⟩ := receiveControl_latch s l f
  · rw [e]; exact .of_eq rfl rfl
  · rw [e]; exact .of_eq rfl rfl

/-- Counting bytes of a window leaves the request that the engine serves (R148). -/
theorem serviceStands_probeCount (s : State) (l : LaneId) (len : Nat) : s.ServiceStands (s.probeCount l len) := by
  unfold State.probeCount
  split
  · split
    · exact ⟨rfl, rfl, rfl⟩
    · exact .refl s
  · exact .refl s
  · exact .refl s

theorem serviceStands_inboundFrame (s : State) (l : LaneId) (f : Frame) : s.ServiceStands (s.inboundFrame l f) := by
  have sent : s.ServiceStands (s.sendStation l f) := .of_eq rfl rfl
  unfold State.inboundFrame
  split
  · exact (laneEvent_countLane s l _).serviceStands
  · split
    · exact sent.trans (laneEvent_countLane _ l _).serviceStands
    · split
      · exact serviceStands_receiveControl s l f
      · split
        · exact sent.trans (laneEvent_countLane _ l _).serviceStands
        · unfold State.inboundSegment
          split
          · exact (sent.trans ((laneEvent_reportSegment _ l _).trans (laneEvent_handOn _ l _)).serviceStands).trans
              (serviceStands_probeCount _ l _)
          · exact sent

theorem serviceStands_takeHandOver (s : State) : s.ServiceStands s.takeHandOver :=
  .of_eq (congrArg State.probe (takeHandOver_rest s) :) (congrArg State.keepalive (takeHandOver_rest s) :)

theorem serviceStands_endFrame (s : State) (l : LaneId) : s.ServiceStands (s.endFrame l) := by
  have offered : ∀ u : State, u.ServiceStands (u.offerSlot l) := fun u => by
    unfold State.offerSlot
    split
    · exact serviceStands_ite (serviceStands_takeHandOver u)
    · exact .refl u
    · exact .refl u
  obtain idle | ⟨f, sending⟩ := Option.eq_none_or_eq_some (s.lane l).output
  · rw [endFrame_of_idle idle]
    exact .refl s
  · have started : s.ServiceStands ((s.sendFabric l f).modLane l LaneState.nextOutput) := .of_eq rfl rfl
    rw [endFrame_of_output sending]
    refine State.ServiceStands.trans ?_ (laneEvent_drain _ l).serviceStands
    unfold State.served
    dsimp only
    split
    · exact started.trans (offered _)
    · exact started

/-! ### Every command and every step -/

theorem exec_serviceLegal {c : Instr} (h : exec c s = .next t) (legal : s.ServiceLegal) : t.ServiceLegal := by
  have command : ∀ (code : Byte) (params : List Byte), c.command = some (code, params) → t.ServiceLegal := by
    intro code params hc
    cases now : s.spaceFor code params with
    | none =>
      rw [exec_command_notNow hc now] at h
      cases h
      exact legal
    | some space =>
      have served := served_of_exec h
      obtain ⟨u, answer, -, apart⟩ := exec_command_spec hc now
      obtain rfl : u = t := Host.Outcome.next.inj (answer.symm.trans h)
      have lane : ∀ l : LaneId, u.lane l = (c.outcome space s).state.lane l := fun l => (spares_of_apart apart l).lane
      simp only [lane] at served
      exact (serviceLegal_outcome c space legal served).stands
        (.of_eq (congrArg State.probe apart :) (congrArg State.keepalive apart :)) fun l => by rw [lane]; exact id
  have stands : c.setsModes = false → s.ServiceStands t → t.ServiceLegal := fun row stands =>
    legal.stands stands (served_of_exec h row)
  have limit : ∀ (slot : Nat) (due : FlowRecord → Prop) [DecidablePred due], s.ServiceStands (match s.silentRecord slot with
      | some r => if due r then s.limitEvent slot r else s
      | none => s) := fun slot due _ => by
    split
    · rename_i r _
      have limited : s.ServiceStands (s.limitSlot slot) := .of_eq rfl rfl
      exact serviceStands_ite (limited.trans (laneEvent_handOn _ r.lane s).serviceStands)
    · exact .refl s
  have engine : s.engineTick.ServiceLegal :=
    legal.of_keepalive (outside_engineTick s).keepalive (probeLegal_engineTick legal.probe)
  have interval : ∀ (k : LaneId) (u : State), u.ServiceLegal → (State.intervalTick k u).ServiceLegal := fun k u h =>
    h.of_keepalive (outside_intervalTick k u).keepalive (probeLegal_intervalTick k h.probe)
  cases c
  case inboundArrival l f => cases h; exact stands rfl (serviceStands_ite (serviceStands_inboundFrame s l f))
  case outboundArrival l f => cases h; exact stands rfl (serviceStands_ite (laneEvent_outboundFrame s l f).serviceStands)
  case powerOn => cases h; exact serviceLegal_of_reset rfl rfl
  case rstNAssert => cases h; exact serviceLegal_of_reset rfl rfl
  case rstNRelease a k p =>
    cases h
    split
    · exact legal
    · exact serviceLegal_of_reset rfl rfl
  case outputFrameEnd l => cases h; exact stands rfl (serviceStands_ite (serviceStands_endFrame s l))
  case responseHandover => cases h; exact stands rfl (serviceStands_ite (serviceStands_takeHandOver s))
  case drainRelease l => cases h; exact stands rfl (serviceStands_ite (laneEvent_drain s l).serviceStands)
  case epochTick => cases h; exact serviceLegal_ite legal (serviceLegal_timerTick legal)
  case flowTableTick =>
    cases h
    exact stands rfl (serviceStands_ite (State.SameRest.serviceStands (foldl_sameRest laneEvent_flowTickLane allLanes s)))
  case expectationTimeout slot => cases h; exact stands rfl (limit slot.val _)
  case ageLimit slot => cases h; exact stands rfl (limit slot.val _)
  case gateTick =>
    cases h
    exact stands rfl (serviceStands_ite (State.SameRest.serviceStands (foldl_sameRest laneEvent_gateTickLane allLanes s)))
  case holdLimit l => cases h; exact stands rfl (serviceStands_ite (laneEvent_reevaluateLoop true _ l s).serviceStands)
  case probeTick => cases h; exact serviceLegal_ite legal (forEachLane_keeps interval engine)
  case probeWindowStart =>
    cases h
    split
    · exact serviceLegal_ite legal engine
    · exact legal
    · exact legal
  case probeCompletion => cases h; exact serviceLegal_ite legal engine
  case probeIntervalRequest l => cases h; exact serviceLegal_ite legal (interval l s legal)
  case keepaliveTick => cases h; exact serviceLegal_ite legal (serviceLegal_monitorTick legal)
  case keepaliveExpiry => cases h; exact serviceLegal_ite legal (serviceLegal_monitorTick legal)
  case refclkStop => cases h; exact stands rfl (.of_eq rfl rfl)
  case refclkReturn => cases h; exact stands rfl (.of_eq rfl rfl)
  all_goals exact command _ _ rfl

theorem serviceStands_clockCycle (s : State) : s.ServiceStands s.clockCycle := by
  unfold State.clockCycle
  split
  · split
    · exact .of_eq rfl rfl
    · split
      · exact .of_eq rfl rfl
      · exact .of_eq rfl rfl
  · exact .refl s

end

/-- Settles O56: the operations that touch the monitor, a request or a served lane keep both legal, and so does every
step. -/
theorem stepKeepsKeepaliveAndProbeLegal : Obligations.StepKeepsKeepaliveAndProbeLegal := by
  unfold Obligations.StepKeepsKeepaliveAndProbeLegal
  intro s t monitor probe h
  obtain ⟨monitor', probe'⟩ := step_keeps (P := State.ServiceLegal)
    (fun s legal => legal.stands (serviceStands_clockCycle s) fun l => by
      rw [((stays_clockCycle (K := anyKey) (W := anyWeight) s).modes l).1]; exact id)
    (fun s rest legal => legal.stands (.of_eq rfl rfl) fun _ => id) (fun _ _ _ legal run => exec_serviceLegal run legal)
    ⟨monitor, probe⟩ h
  exact ⟨monitor', probe'⟩

end Sys2Proof.Machine

/-! SUPPORT. The order in which the events of an epoch tick wait, and the two commands of one's own on the timebase and the
probe's requests (R136 to R138, R142, R143, R145 to R147). -/

namespace Sys2Proof.Machine

/-! ### The reference clock -/

/-- An order named by a number has every element of the list, each as often. -/
theorem orderBy_perm {α : Type} (n : Nat) : ∀ (k : Nat) (xs : List α), (orderBy n k xs).Perm xs := by
  induction n with
  | zero => exact fun _ _ => .refl _
  | succ n ih =>
    intro k xs
    rw [orderBy]
    split
    · rename_i x first
      obtain ⟨inside, rfl⟩ := List.getElem?_eq_some_iff.mp first
      exact ((ih _ _).cons _).trans (List.getElem_cons_eraseIdx_perm inside)
    · exact .refl xs

/-- Settles O2: by the stage at which the cycle ends. -/
theorem idleStepCountsOneClockCycle : Obligations.IdleStepCountsOneClockCycle := by
  unfold Obligations.IdleStepCountsOneClockCycle
  intro s empty
  have cycle : step s = .next s.clockCycle := by rw [step, empty]
  rw [cycle, State.clockCycle]
  refine ⟨fun still => ?_, fun clocked within => ?_, fun clocked ends within => ?_, fun clocked ends last => ?_⟩
  · rw [still]
    rfl
  · rw [if_pos clocked, if_pos within]
  · rw [if_pos clocked, if_neg (Nat.not_lt.mpr ends), if_pos within]
  · refine ⟨_, orderBy_perm tickEvents.length (Config.tickOrder s.orderIndex) tickEvents, ?_⟩
    rw [if_pos clocked, if_neg (Nat.not_lt.mpr ends), if_neg (Nat.not_lt.mpr last), empty, List.nil_append]

/-! ### SET-TIMEBASE -/

theorem okOr_raised (p e : Nat) :
    (okOr (decide (p < 2) || decide (e < 2))).code = if 2 ≤ p ∧ 2 ≤ e then 0x00 else 0x01 := by
  by_cases whole : 2 ≤ p ∧ 2 ≤ e
  · rw [if_pos whole, okOr, decide_eq_false (Nat.not_lt.mpr whole.1), decide_eq_false (Nat.not_lt.mpr whole.2)]
    rfl
  · have raised : (decide (p < 2) || decide (e < 2)) = true := by
      rw [Bool.or_eq_true, decide_eq_true_eq, decide_eq_true_eq]
      omega
    rw [if_neg whole, okOr, raised]
    rfl

/-- Settles O29: the checks pass, and the effect is the staged pair. -/
theorem setTimebaseStagesThePair : Obligations.SetTimebaseStagesThePair := by
  unfold Obligations.SetTimebaseStagesThePair
  intro params s space p e now fits len hp he
  obtain ⟨t, answer, item, apart⟩ := exec_command_spec (c := .setTimebase params) rfl now
  have effect : (Instr.setTimebase params).outcome space s = effectSetTimebase params space s := rfl
  rw [effect, effectSetTimebase, withLength_of_le len] at item apart
  dsimp only at item apart
  rw [withSpace_of_le fits, ← hp, ← he] at item apart
  exact ⟨t, answer, by rw [item, okOr_raised], apart⟩

/-! ### Requests -/

theorem join_eq (k k' : ProbeKind) : k'.join k = if k = .long then .long else k' := by
  cases k <;> cases k' <;> rfl

section

variable {s : State} {l : LaneId}

/-- A request of a lane that is queued makes its request LONG, or leaves it (R143). -/
theorem probe_requestProbe_merged (h : l ∈ s.probe.queue.map (·.lane)) (k : ProbeKind) :
    (s.requestProbe l k).probe = { s.probe with
      queue := s.probe.queue.map fun r => if r.lane = l ∧ k = .long then { r with kind := .long } else r } := by
  rw [State.requestProbe, if_pos ((probeQueued_iff s l).mpr h)]
  have merged : ∀ r : ProbeRequest, (if r.lane = l then { r with kind := r.kind.join k } else r) =
      if r.lane = l ∧ k = .long then { r with kind := .long } else r := fun r => by
    rw [join_eq]
    by_cases own : r.lane = l
    · by_cases long : k = .long
      · rw [if_pos own, if_pos long, if_pos ⟨own, long⟩]
      · rw [if_pos own, if_neg long, if_neg fun c => long c.2]
    · rw [if_neg own, if_neg fun c => own c.1]
  simp only [merged]

theorem probe_requestProbe_short (h : l ∈ s.probe.queue.map (·.lane)) : (s.requestProbe l .short).probe = s.probe := by
  rw [probe_requestProbe_merged h]
  simp

/-- The probe with new requests behind its queue, and an IDLE engine granted to the first of them (R143, R146). -/
def Probe.place (p : Probe) (new : List ProbeRequest) : Probe :=
  match p.engine, new with
  | .idle, r :: rest => ⟨rest, .waiting r, 0, 0, true⟩
  | _, _ => { p with queue := p.queue ++ new }

theorem Probe.place_nil (p : Probe) : p.place [] = p := by
  unfold Probe.place
  split
  · contradiction
  · rw [List.append_nil]

theorem Probe.place_of_idle {p : Probe} (idle : p.engine = .idle) (r : ProbeRequest) (rest : List ProbeRequest) :
    p.place (r :: rest) = ⟨rest, .waiting r, 0, 0, true⟩ := by
  unfold Probe.place
  rw [idle]

theorem Probe.place_of_busy {p : Probe} (busy : p.engine ≠ .idle) (new : List ProbeRequest) :
    p.place new = { p with queue := p.queue ++ new } := by
  unfold Probe.place
  split
  · rename_i idle
    exact absurd idle busy
  · rfl

/-- The requests of one tick are placed one behind the other (R152). -/
theorem Probe.place_place (p : Probe) (r : ProbeRequest) (rest : List ProbeRequest) :
    (p.place [r]).place rest = p.place (r :: rest) := by
  by_cases idle : p.engine = .idle
  · rw [place_of_idle idle, place_of_idle idle, place_of_busy (p := ⟨[], .waiting r, 0, 0, true⟩) nofun]
    rfl
  · rw [place_of_busy idle, place_of_busy idle, place_of_busy (p := { p with queue := p.queue ++ [r] }) idle,
      List.append_assoc]
    rfl

/-- A request of a served lane that is not queued, where nothing waits behind an IDLE engine (R143, R146). -/
theorem probe_requestProbe_new (h : l ∉ s.probe.queue.map (·.lane)) (served : (s.lane l).mode.served = true)
    (granted : s.probe.engine = .idle → s.probe.queue = []) (k : ProbeKind) :
    (s.requestProbe l k).probe = s.probe.place [⟨l, k⟩] := by
  rw [requestProbe_of_new h]
  by_cases idle : s.probe.engine = .idle
  · have next : State.nextServed { s with probe := { s.probe with queue := [⟨l, k⟩] } } [⟨l, k⟩] = some (⟨l, k⟩, []) :=
      if_pos served
    rw [granted idle, State.grantProbe, if_pos idle, Probe.place_of_idle idle]
    simp only [List.nil_append, next]
  · rw [State.grantProbe, if_neg idle, Probe.place_of_busy idle]

theorem effectStartProbe_eq {params : List Byte} {space : Nat} {k : ProbeKind} (s : State) (fits : 1 ≤ space)
    (len : 2 ≤ params.length) (lane : byteAt params 0 = l.val) (kind : probeKindOf (byteAt params 1) = some k) :
    effectStartProbe params space s =
      if (s.lane l).mode.served then ⟨.ok, [boolByte (s.probeQueued l)], s.requestProbe l k⟩ else refuse .notNow s := by
  unfold effectStartProbe
  rw [withLength_of_le len, withLane_of_val lane, kind]
  exact withSpace_of_le fits s _

end

/-- Settles O36: refused, merged, or placed behind the queue. -/
theorem startProbeQueuesOrMerges : Obligations.StartProbeQueuesOrMerges := by
  unfold Obligations.StartProbeQueuesOrMerges
  intro params s space l k now fits len lane names
  have kind : probeKindOf (byteAt params 1) = some k := by
    obtain ⟨byte, rfl⟩ | ⟨byte, rfl⟩ := names <;> rw [byte] <;> rfl
  obtain ⟨t, answer, item, apart⟩ := exec_command_spec (c := .startProbe params) rfl now
  have effect : (Instr.startProbe params).outcome space s = effectStartProbe params space s := rfl
  rw [effect, effectStartProbe_eq s fits len lane kind] at item apart
  obtain ⟨p, asked⟩ := probeOnly_requestProbe s l k
  have probe : p = (s.requestProbe l k).probe := by rw [asked]
  have waits : (s.lane l).mode.served = true → t.apartEngine = State.apartEngine { s with probe := p } := fun served => by
    rw [apart, if_pos served]
    exact congrArg State.apartEngine asked
  have queued : (s.lane l).mode.served = true → t.lastItem = some ⟨0x16, 0x00, [boolByte (s.probeQueued l)]⟩ :=
    fun served => by
      rw [item, if_pos served]
      rfl
  have new : l ∉ s.probe.queue.map (·.lane) → s.probeQueued l = false := fun h =>
    Bool.eq_false_iff.mpr fun c => h ((probeQueued_iff s l).mp c)
  refine ⟨fun other => ⟨t, answer, ?_⟩, fun served merges => ⟨t, answer, ?_, ?_⟩,
    fun served fresh busy => ⟨t, answer, ?_, ?_⟩, fun served empty idle => ⟨t, answer, ?_, ?_⟩⟩
  · rw [if_neg (by rw [other]; exact Bool.false_ne_true)] at item apart
    exact ⟨item, apart⟩
  · rw [queued served, (probeQueued_iff s l).mpr merges]
    rfl
  · rw [waits served, probe, probe_requestProbe_merged merges]
  · rw [queued served, new fresh]
    rfl
  · rw [waits served, probe, probe_requestProbe_new fresh served (fun idle => absurd idle busy), Probe.place_of_busy busy]
  · rw [queued served, new (by rw [empty]; exact List.not_mem_nil)]
    rfl
  · rw [waits served, probe, probe_requestProbe_new (by rw [empty]; exact List.not_mem_nil) served (fun _ => empty),
      Probe.place_of_idle idle]

end Sys2Proof.Machine

/-! SUPPORT. The probe's tick: the engine's work by its state, then the requests of the lanes whose interval count reaches
K, placed in ascending lane number (R142, R143, R146, R147, R149, R152). -/

namespace Sys2Proof.Machine

section

variable {s : State} {l k : LaneId}

/-! ### The interval count of one lane -/

theorem intervalDue_iff (x : LaneState) : x.intervalDue = true ↔
    x.mode = .active ∧ x.params.probeInterval ≠ 0 ∧ x.params.probeInterval ≤ x.intervalCount + 1 :=
  decide_eq_true_iff

theorem intervalTick_of_due (due : (s.lane l).intervalDue = true) :
    State.intervalTick l s = (s.modLane l fun x => { x with intervalCount := 0 }).requestProbe l .short := by
  obtain ⟨active, interval, reached⟩ := (intervalDue_iff _).mp due
  rw [State.intervalTick, if_pos ⟨active, interval⟩, if_pos reached]

/-- A count that does not reach K leaves the probe. -/
theorem probe_intervalTick_of_not_due (due : ¬ (s.lane l).intervalDue = true) : (State.intervalTick l s).probe = s.probe := by
  rw [intervalDue_iff] at due
  unfold State.intervalTick
  split
  · rename_i counts
    rw [if_neg fun reached => due ⟨counts.1, counts.2, reached⟩]
    rfl
  · rfl

/-- The tick that brings a lane's count to K places its SHORT request; a lane queued already keeps its own (R142, R143). -/
theorem probe_intervalTick_of_due (due : (s.lane l).intervalDue = true) :
    (l ∈ s.probe.queue.map (·.lane) → (State.intervalTick l s).probe = s.probe) ∧
    (l ∉ s.probe.queue.map (·.lane) → (s.probe.engine = .idle → s.probe.queue = []) →
      (State.intervalTick l s).probe = s.probe.place [⟨l, .short⟩]) := by
  obtain ⟨u, hu⟩ : ∃ u : State, u = s.modLane l fun x => { x with intervalCount := 0 } := ⟨_, rfl⟩
  have probe : u.probe = s.probe := by rw [hu]; rfl
  have served : (u.lane l).mode.served = true := by
    rw [hu, State.lane_modLane_same]
    exact ((intervalDue_iff _).mp due).1 ▸ rfl
  rw [intervalTick_of_due due, ← hu, ← probe]
  exact ⟨probe_requestProbe_short, fun new granted => probe_requestProbe_new new served granted .short⟩

/-- Settles O46: the window's start, and the request of the lane whose count reaches K. -/
theorem windowStartAndIntervalRequest : Obligations.WindowStartAndIntervalRequest := by
  unfold Obligations.WindowStartAndIntervalRequest
  refine ⟨fun s r clocked waiting => ?_, fun l s clocked active interval reached => ?_⟩
  · simp only [exec, execProbeWindowStart, waiting, clocked, if_true, State.engineTick]
  · have due : (s.lane l).intervalDue = true := (intervalDue_iff _).mpr ⟨active, interval, reached⟩
    obtain ⟨keeps, places⟩ := probe_intervalTick_of_due due
    obtain ⟨p, asked⟩ := probeOnly_requestProbe (s.modLane l fun x => { x with intervalCount := 0 }) l .short
    refine ⟨State.intervalTick l s, congrArg Host.Outcome.next (if_pos (by rw [clocked, due]; rfl)), ?_, keeps,
      fun new busy => ?_, fun empty idle => ?_⟩
    · rw [intervalTick_of_due due, asked]
      rfl
    · rw [places new fun idle => absurd idle busy, Probe.place_of_busy busy]
    · rw [places (by rw [empty]; exact List.not_mem_nil) fun _ => empty, Probe.place_of_idle idle]

/-! ### The interval counts of all lanes -/

/-- The requests that the interval counts of some lanes bring at a tick, in the lanes' order (R142, R143). -/
def State.intervalRequests (s : State) (ls : List LaneId) : List ProbeRequest :=
  (ls.filter fun l => (s.lane l).intervalDue ∧ l ∉ s.probe.queue.map (·.lane)).map fun l => ⟨l, .short⟩

/-- A request placed for one lane asks for no other. -/
theorem mem_place (p : Probe) (granted : p.engine = .idle → p.queue = []) (ne : l ≠ k) (kind : ProbeKind) :
    l ∈ (p.place [⟨k, kind⟩]).queue.map (·.lane) ↔ l ∈ p.queue.map (·.lane) := by
  by_cases idle : p.engine = .idle
  · rw [Probe.place_of_idle idle, granted idle]
  · rw [Probe.place_of_busy idle]
    simp [ne]

theorem granted_place (p : Probe) (r : ProbeRequest) : (p.place [r]).engine ≠ .idle := by
  by_cases idle : p.engine = .idle
  · rw [Probe.place_of_idle idle]
    exact nofun
  · rw [Probe.place_of_busy idle]
    exact idle

/-- Lanes taken one after another place their requests one behind the other (R152). -/
theorem probe_foldl_intervalTick (ls : List LaneId) : ∀ s : State, ls.Nodup →
    (s.probe.engine = .idle → s.probe.queue = []) →
    (ls.foldl (fun s l => State.intervalTick l s) s).probe = s.probe.place (s.intervalRequests ls) := by
  induction ls with
  | nil => exact fun s _ _ => s.probe.place_nil.symm
  | cons k rest ih =>
    intro s nodup granted
    obtain ⟨new, nodup⟩ := List.nodup_cons.mp nodup
    obtain ⟨u, hu⟩ : ∃ u : State, u = State.intervalTick k s := ⟨_, rfl⟩
    have lane : ∀ l ∈ rest, u.lane l = s.lane l := fun l hl => by
      have ne : l ≠ k := fun e => new (e ▸ hl)
      rw [hu, lane_intervalTick, State.lane_modLane_ne _ _ ne]
    have later : (∀ l ∈ rest, l ∈ u.probe.queue.map (·.lane) ↔ l ∈ s.probe.queue.map (·.lane)) →
        u.intervalRequests rest = s.intervalRequests rest := fun queued =>
      congrArg (List.map _) (List.filter_congr fun l hl =>
        decide_eq_decide.mpr (by rw [lane l hl, queued l hl]))
    rw [List.foldl_cons, ← hu]
    by_cases asks : (s.lane k).intervalDue = true ∧ k ∉ s.probe.queue.map (·.lane)
    · have placed : u.probe = s.probe.place [⟨k, .short⟩] := hu ▸ (probe_intervalTick_of_due asks.1).2 asks.2 granted
      have first : s.intervalRequests (k :: rest) = ⟨k, .short⟩ :: s.intervalRequests rest := by
        simp only [State.intervalRequests, List.filter_cons, decide_eq_true asks, if_true, List.map_cons]
      rw [ih u nodup fun idle => absurd idle (placed ▸ granted_place _ _), first, ← Probe.place_place, ← placed,
        later fun l hl => ?_]
      rw [placed]
      exact mem_place _ granted (show l ≠ k from fun e => new (e ▸ hl)) _
    · have stands : u.probe = s.probe := by
        by_cases due : (s.lane k).intervalDue = true
        · exact hu ▸ (probe_intervalTick_of_due due).1 (by_contra fun c => asks ⟨due, c⟩)
        · exact hu ▸ probe_intervalTick_of_not_due due
      have first : s.intervalRequests (k :: rest) = s.intervalRequests rest := by
        simp only [State.intervalRequests, List.filter_cons, decide_eq_false asks, Bool.false_eq_true, if_false]
      rw [ih u nodup (by rw [stands]; exact granted), first, later fun l _ => by rw [stands], stands]

/-- The requests of a tick, spelled by K and the counts with which the tick began. -/
theorem intervalRequests_engineTick (s : State) : s.engineTick.intervalRequests allLanes =
    (([0, 1, 2, 3, 4, 5, 6, 7] : List LaneId).filter fun l =>
      (s.lane l).mode = .active ∧ (s.lane l).params.probeInterval ≠ 0 ∧
        (s.lane l).params.probeInterval ≤ (s.lane l).intervalCount + 1 ∧
        l ∉ s.engineTick.probe.queue.map (·.lane)).map fun l => ⟨l, .short⟩ := by
  refine congrArg (List.map _) (List.filter_congr fun l _ => decide_eq_decide.mpr ?_)
  obtain ⟨mode, params, count⟩ := settings_engineTick s l
  rw [intervalDue_iff, mode, params, count]
  simp only [and_assoc]

/-! ### The tick -/

/-- An engine that completes is granted to the head of the queue, or is IDLE with nothing queued (R146, R150). -/
theorem probe_engineTick_of_end {r : ProbeRequest} (legal : s.ProbeLegal) (engine : s.probe.engine = .measuring r)
    (ends : r.kind.window ≤ s.probe.windowTicks + 1) :
    (∀ (q : ProbeRequest) (rest : List ProbeRequest), s.probe.queue = q :: rest →
      s.engineTick.probe = ⟨rest, .waiting q, 0, 0, true⟩) ∧
    (s.probe.queue = [] → s.engineTick.probe.engine = .idle ∧ s.engineTick.probe.queue = []) := by
  obtain ⟨v, ticked, -, -, -, idle, queue⟩ := engineTick_of_end engine ends
  have lane : ∀ k : LaneId, v.lane k = s.engineTick.lane k := fun k => by
    rw [ticked]
    exact ((probeOnly_grantProbe v).spares k).lane.symm
  have granted := probe_grantProbe_of_idle idle fun x hx => by
    rw [lane, (settings_engineTick s x.lane).1]
    exact legal.2.1 x (queue ▸ hx)
  rw [ticked, granted, queue]
  refine ⟨fun q rest head => by rw [head], fun empty => ?_⟩
  rw [empty]
  exact ⟨idle, queue.trans empty⟩

end

/-- Settles O45: the engine's work, then the interval counts, each lane's request behind those of the lanes below it. -/
theorem probeTickCountsWindowsAndIntervals : Obligations.ProbeTickCountsWindowsAndIntervals := by
  unfold Obligations.ProbeTickCountsWindowsAndIntervals
  intro s clocked
  obtain ⟨e, he⟩ : ∃ e : State, e = s.engineTick := ⟨_, rfl⟩
  obtain ⟨t, ht⟩ : ∃ t : State, t = forEachLane State.intervalTick e := ⟨_, rfl⟩
  have work : e.IntervalWork t := ht ▸ forEachLane_keeps (P := e.IntervalWork)
    (fun k u h => h.trans (intervalWork_intervalTick k u)) (.refl e)
  have outside : s.OutsideStands t := ht ▸ forEachLane_keeps (P := s.OutsideStands)
    (fun k u h => h.trans (outside_intervalTick k u)) (he ▸ outside_engineTick s)
  have lane : ∀ l : LaneId, t.lane l = { e.lane l with intervalCount := (e.lane l).interval } := fun l =>
    ht ▸ lane_intervalTicks e l
  have settings := he ▸ settings_engineTick s
  have waiting : ∀ r : ProbeRequest, s.probe.engine = .waiting r → e.probe = { s.probe with engine := .measuring r } :=
    fun r engine => by rw [he, State.engineTick, engine]
  have window : ∀ r : ProbeRequest, s.probe.engine = .measuring r →
      s.probe.windowTicks + 1 < (if r.kind = .long then 8 else 2) → e.probe = { s.probe with
        windowTicks := s.probe.windowTicks + 1
        valid := s.probe.valid && decide ((s.lane r.lane).budget / 2 ≤ s.c r.lane) } := fun r engine goes => by
    rw [← window_eq] at goes
    rw [he, engineTick_of_window engine (Nat.not_le.mpr goes)]
    rfl
  refine ⟨t, ?_, fun r engine => ?_, fun r engine goes => ?_, fun legal => ?_, fun l => ?_, fun l => ?_,
    (congrArg State.timer outside :), outside.keepalive, (congrArg State.windows outside :)⟩
  · rw [ht, he]
    exact congrArg Host.Outcome.next (if_pos clocked)
  · have began := waiting r engine
    obtain ⟨more, placed⟩ := work.busy (by rw [began]; exact nofun)
    rw [placed, began]
    exact ⟨rfl, rfl, rfl, rfl⟩
  · have counted := window r engine goes
    obtain ⟨more, placed⟩ := work.busy (by rw [counted, engine]; exact nofun)
    rw [placed, counted]
    exact ⟨engine, rfl, rfl, rfl⟩
  · obtain ⟨-, -, -, granted⟩ := he ▸ probeLegal_engineTick legal
    have placed : t.probe = e.probe.place (e.intervalRequests allLanes) := ht ▸
      probe_foldl_intervalTick allLanes e (by decide) granted
    refine ⟨e.probe, e.intervalRequests allLanes, fun engine => ?_, waiting, window, fun r engine ends => ?_,
      he ▸ intervalRequests_engineTick s, fun busy => ?_, fun _ none => ?_, fun q rest idle first => ?_⟩
    · rw [he, State.engineTick, engine]
    · rw [← window_eq] at ends
      exact he ▸ probe_engineTick_of_end legal engine ends
    · rw [placed, Probe.place_of_busy busy]
    · rw [placed, none, Probe.place_nil]
    · rw [placed, first, Probe.place_of_idle idle]
  · obtain ⟨mode, params, count⟩ := settings l
    rw [lane, LaneState.interval, mode, params, count]
  · obtain ⟨mode, params, -⟩ := settings l
    rw [lane]
    exact ⟨mode, params⟩

end Sys2Proof.Machine

/-! SUPPORT. The checks that a command of the control engine passes before its effect, each with the status it answers, in
the order of R159 (R27, R50, R73, R75, R116, R145, R159, R160, R164, R170). -/

namespace Sys2Proof.Machine

/-! ### Codes that a command does not define -/

theorem laneOf_eq_none (v : Nat) : laneOf v = none ↔ 8 ≤ v := by
  unfold laneOf
  split <;> simp <;> omega

theorem classIndexOf_eq_none (v : Nat) : classIndexOf v = none ↔ 63 < v := by
  unfold classIndexOf
  split <;> simp <;> omega

theorem requestedMode_eq_none : ∀ v : Nat, requestedMode v = none ↔ 2 < v
  | 0 | 1 | 2 => by simp [requestedMode]
  | v + 3 => by simp [requestedMode]

theorem probeKindOf_eq_none : ∀ v : Nat, probeKindOf v = none ↔ 1 < v
  | 0 | 1 => by simp [probeKindOf]
  | v + 2 => by simp [probeKindOf]

theorem enableOf_eq_none : ∀ v : Nat, enableOf v = none ↔ 1 < v
  | 0 | 1 => by simp [enableOf]
  | v + 2 => by simp [enableOf]

theorem tierOf_eq_none : ∀ v : Nat, tierOf v = none ↔ 3 < v
  | 0 | 1 | 2 | 3 => by simp [tierOf]
  | v + 4 => by simp [tierOf]

theorem matchFieldOf_eq_none : ∀ v : Nat, matchFieldOf v = none ↔ 3 < v
  | 0 | 1 | 2 | 3 => by simp [matchFieldOf]
  | v + 4 => by simp [matchFieldOf]

theorem roleOf_eq_none : ∀ v : Nat, roleOf v = none ↔ 2 < v
  | 0 | 1 | 2 => by simp [roleOf]
  | v + 3 => by simp [roleOf]

theorem ipVersionOf_eq_none : ∀ v : Nat, ipVersionOf v = none ↔ v ∉ [4, 6]
  | 0 | 1 | 2 | 3 | 4 | 5 | 6 => by simp [ipVersionOf]
  | v + 7 => by simp [ipVersionOf]

/-- Where the key of an EVICT-FLOW ends, by the IP version it names (R170). -/
theorem keyEnd_of_ipVersionOf {v : IpVersion} : ∀ {n : Nat}, ipVersionOf n = some v →
    (if n = 4 then 14 else 38) = 6 + 2 * v.addrBytes
  | 4, rfl => rfl
  | 6, rfl => rfl

theorem etherTypeRefused_iff (v : Nat) :
    etherTypeRefused v = true ↔ v < 0x0600 ∨ v ∈ [0x0800, 0x86DD, 0x8100, 0x88A8] := by
  simp [etherTypeRefused, or_assoc]

/-- An entry is undefined as soon as its enable, its tier, its field or its role is (R50). -/
theorem classEntryAt_eq_none (params : List Byte) : classEntryAt params 1 = none ↔
    1 < byteAt params 1 ∨ 3 < byteAt params 2 ∨ 3 < byteAt params 3 ∨ 2 < byteAt params 10 := by
  rw [← enableOf_eq_none, ← tierOf_eq_none, ← matchFieldOf_eq_none, ← roleOf_eq_none]
  unfold classEntryAt
  split
  · rename_i enable tier field role
    simp [byteAt, enable, tier, field, role]
  · rename_i undefined
    simp only [true_iff]
    by_contra defined
    simp only [not_or, ← ne_eq, Option.ne_none_iff_exists'] at defined
    obtain ⟨⟨en, enable⟩, ⟨ti, tier⟩, ⟨fi, field⟩, ⟨ro, role⟩⟩ := defined
    exact undefined en ti fi ro enable tier field role

/-! ### How the checks end -/

/-- The ways in which a command's checks can end, by the status of the first of checks 2 to 4 that fails: refused with
that status; abandoned, its full results not fitting the space; done; or, past these checks, refused with NOT-NOW (R159,
R160). -/
inductive CommandOutcome.Ends (s : State) (full space : Nat) : Option Byte → CommandOutcome → Prop where
  | refused (status : Status) : Ends s full space (some status.code) (refuse status s)
  | abandoned (short : space < full) : Ends s full space none (refuse .abandoned s)
  | done {o : CommandOutcome} (fits : full ≤ space) (status : o.status = .ok ∨ o.status = .clamped) :
      Ends s full space none o
  | notNow (fits : full ≤ space) (results : List Byte) : Ends s full space none ⟨.notNow, results, s⟩

theorem okOr_eq (clamped : Bool) : okOr clamped = .ok ∨ okOr clamped = .clamped := by
  cases clamped
  · exact .inl rfl
  · exact .inr rfl

section

variable {s : State} {full space : Nat} {refusal : Option Byte} {params : List Byte} {o : CommandOutcome}

theorem CommandOutcome.Ends.withLength (h : o.Ends s full space refusal) (least : Nat) :
    (withLength least params s o).Ends s full space (if params.length < least then some 0x07 else refusal) := by
  unfold Machine.withLength
  split
  · exact .refused .short
  · exact h

theorem CommandOutcome.Ends.withLane {k : LaneId → CommandOutcome} (h : ∀ l : LaneId, (k l).Ends s full space refusal) :
    (withLane params s k).Ends s full space (if 8 ≤ byteAt params 0 then some 0x03 else refusal) := by
  unfold Machine.withLane
  cases lane : laneOf (byteAt params 0) with
  | none =>
    rw [if_pos ((laneOf_eq_none _).mp lane)]
    exact .refused .badLane
  | some l =>
    rw [if_neg fun above => by rw [(laneOf_eq_none _).mpr above] at lane; cases lane]
    exact h l

/-- A check of a command's own, with its status. -/
theorem CommandOutcome.Ends.withCheck {check : Prop} [Decidable check] (status : Status)
    (h : o.Ends s full space refusal) : (if check then refuse status s else o).Ends s full space
      (if check then some status.code else refusal) := by
  split
  · exact .refused status
  · exact h

theorem CommandOutcome.Ends.withSpace (h : full ≤ space → o.Ends s full space none) :
    (withSpace full space s o).Ends s full space none := by
  unfold Machine.withSpace
  split
  · rename_i short
    exact .abandoned short
  · rename_i fits
    exact h (Nat.not_lt.mp fits)

/-- A command that nothing but its space can keep from being done. -/
theorem CommandOutcome.Ends.whole (status : o.status = .ok ∨ o.status = .clamped) :
    (Machine.withSpace full space s o).Ends s full space none := .withSpace fun fits => .done fits status

/-- Only a command that is done, OK or CLAMPED, changes anything. -/
theorem CommandOutcome.Ends.unchanged (h : o.Ends s full space refusal) :
    o.status = .ok ∨ o.status = .clamped ∨ o.state = s := by
  cases h with
  | refused status => exact .inr (.inr rfl)
  | abandoned short => exact .inr (.inr rfl)
  | done fits status => exact status.imp_right .inl
  | notNow fits results => exact .inr (.inr rfl)

end

/-! ### The checks of each command -/

section

variable (p : List Byte) (space : Nat) (s : State)

theorem ends_writeChip : (effectWriteChip p space s).Ends s 6 space (refusedBy 0x03 p) := by
  have checks : refusedBy 0x03 p = if p.length < 6 then some 0x07
      else if etherTypeRefused (fieldAt p 0 2) = true then some 0x05 else none := by
    simp [refusedBy, leastParams, namesLane, badIndex, badValue, etherTypeRefused_iff]
  rw [checks]
  exact .withLength (.withCheck .badValue (.whole (okOr_eq _))) 6

theorem ends_setTimebase : (effectSetTimebase p space s).Ends s 4 space (refusedBy 0x04 p) := by
  have checks : refusedBy 0x04 p = if p.length < 4 then some 0x07 else none := by
    simp [refusedBy, leastParams, namesLane, badIndex, badValue]
  rw [checks]
  exact .withLength (.whole (okOr_eq _)) 4

theorem ends_ackEvents : (effectAckEvents p space s).Ends s 3 space (refusedBy 0x05 p) := by
  have checks : refusedBy 0x05 p = if p.length < 3 then some 0x07 else none := by
    simp [refusedBy, leastParams, namesLane, badIndex, badValue]
  rw [checks]
  exact .withLength (.whole (.inl rfl)) 3

theorem ends_setLaneMode : (effectSetLaneMode p space s).Ends s 2 space (refusedBy 0x10 p) := by
  have checks : refusedBy 0x10 p = if p.length < 2 then some 0x07 else if 8 ≤ byteAt p 0 then some 0x03
      else if requestedMode (byteAt p 1) = none then some 0x05 else none := by
    simp [refusedBy, leastParams, namesLane, badIndex, badValue, requestedMode_eq_none]
  rw [checks]
  refine .withLength (.withLane fun l => ?_) 2
  cases requestedMode (byteAt p 1) with
  | none => exact .refused .badValue
  | some req =>
    refine .withSpace fun fits => ?_
    cases s.requestMode l req with
    | none => exact .notNow fits _
    | some u => exact .done fits (.inl rfl)

theorem ends_writeLaneParams : (effectWriteLaneParams p space s).Ends s 18 space (refusedBy 0x11 p) := by
  have checks : refusedBy 0x11 p = if p.length < 19 then some 0x07 else if 8 ≤ byteAt p 0 then some 0x03 else none := by
    simp [refusedBy, leastParams, namesLane, badIndex, badValue]
  rw [checks]
  refine .withLength (.withLane fun l => .withSpace fun fits => ?_) 19
  split
  · exact .notNow fits _
  · exact .done fits (okOr_eq _)

theorem ends_readLane : (effectReadLane p space s).Ends s 47 space (refusedBy 0x12 p) := by
  have checks : refusedBy 0x12 p = if p.length < 1 then some 0x07 else if 8 ≤ byteAt p 0 then some 0x03 else none := by
    simp [refusedBy, leastParams, namesLane, badIndex, badValue]
  rw [checks]
  exact .withLength (.withLane fun l => .whole (.inl rfl)) 1

/-- READ-COUNTERS also takes the chip's code where a lane stands (R168). -/
theorem ends_readCounters :
    (effectReadCounters p space s).Ends s (fullResults 0x13 p) space (refusedBy 0x13 p) := by
  have full : fullResults 0x13 p = if byteAt p 0 = chipTarget then 13 else 49 := rfl
  unfold effectReadCounters
  dsimp only
  rw [full]
  by_cases chip : byteAt p 0 = chipTarget
  · have checks : refusedBy 0x13 p = if p.length < 2 then some 0x07 else none := by
      simp [refusedBy, leastParams, badIndex, badValue, show byteAt p 0 = 128 from chip]
    rw [checks, if_pos chip, if_pos chip]
    exact .withLength (.whole (.inl rfl)) 2
  · have checks : refusedBy 0x13 p = if p.length < 2 then some 0x07 else if 8 ≤ byteAt p 0 then some 0x03 else none := by
      simp [refusedBy, leastParams, namesLane, badIndex, badValue, show ¬ byteAt p 0 = 128 from chip]
    rw [checks, if_neg chip, if_neg chip]
    exact .withLength (.withLane fun l => .whole (.inl rfl)) 2

theorem ends_flushFlows : (effectFlushFlows p space s).Ends s 2 space (refusedBy 0x14 p) := by
  have checks : refusedBy 0x14 p = if p.length < 1 then some 0x07 else if 8 ≤ byteAt p 0 then some 0x03 else none := by
    simp [refusedBy, leastParams, namesLane, badIndex, badValue]
  rw [checks]
  refine .withLength (.withLane fun l => .withSpace fun fits => ?_) 1
  split
  · exact .notNow fits _
  · exact .done fits (.inl rfl)

theorem ends_releaseLane : (effectReleaseLane p space s).Ends s 2 space (refusedBy 0x15 p) := by
  have checks : refusedBy 0x15 p = if p.length < 1 then some 0x07 else if 8 ≤ byteAt p 0 then some 0x03 else none := by
    simp [refusedBy, leastParams, namesLane, badIndex, badValue]
  rw [checks]
  exact .withLength (.withLane fun l => .whole (.inl rfl)) 1

theorem ends_startProbe : (effectStartProbe p space s).Ends s 1 space (refusedBy 0x16 p) := by
  have checks : refusedBy 0x16 p = if p.length < 2 then some 0x07 else if 8 ≤ byteAt p 0 then some 0x03
      else if probeKindOf (byteAt p 1) = none then some 0x05 else none := by
    simp [refusedBy, leastParams, namesLane, badIndex, badValue, probeKindOf_eq_none]
  rw [checks]
  refine .withLength (.withLane fun l => ?_) 2
  cases probeKindOf (byteAt p 1) with
  | none => exact .refused .badValue
  | some k =>
    refine .withSpace fun fits => ?_
    split
    · exact .done fits (.inl rfl)
    · exact .notNow fits _

theorem ends_writeClass : (effectWriteClass p space s).Ends s 15 space (refusedBy 0x20 p) := by
  have checks : refusedBy 0x20 p = if p.length < 15 then some 0x07
      else if classIndexOf (byteAt p 0) = none then some 0x04
      else if classEntryAt p 1 = none then some 0x05 else none := by
    simp [refusedBy, leastParams, namesLane, badIndex, badValue, classIndexOf_eq_none, classEntryAt_eq_none]
  rw [checks]
  refine .withLength ?_ 15
  cases classIndexOf (byteAt p 0) with
  | none => exact .refused .badIndex
  | some i =>
    cases classEntryAt p 1 with
    | none => exact .refused .badValue
    | some w => exact .whole (okOr_eq _)

theorem ends_readClass : (effectReadClass p space s).Ends s 15 space (refusedBy 0x21 p) := by
  have checks : refusedBy 0x21 p = if p.length < 1 then some 0x07
      else if classIndexOf (byteAt p 0) = none then some 0x04 else none := by
    simp [refusedBy, leastParams, namesLane, badIndex, badValue, classIndexOf_eq_none]
  rw [checks]
  refine .withLength ?_ 1
  cases classIndexOf (byteAt p 0) with
  | none => exact .refused .badIndex
  | some i => exact .whole (.inl rfl)

theorem ends_readFlows : (effectReadFlows p space s).Ends s 4 space (refusedBy 0x30 p) := by
  have checks : refusedBy 0x30 p = if p.length < 4 then some 0x07 else if 8 ≤ byteAt p 0 then some 0x03
      else if Config.poolSlots ≤ fieldAt p 1 2 then some 0x04 else none := by
    have above : Config.poolSlots ≤ fieldAt p 1 2 ↔ 1023 < fieldAt p 1 2 := Iff.rfl
    simp [refusedBy, leastParams, namesLane, badIndex, badValue, above]
  rw [checks]
  exact .withLength (.withLane fun l => .withCheck .badIndex (.whole (okOr_eq _))) 4

theorem ends_evictFlow : (effectEvictFlow p space s).Ends s 3 space (refusedBy 0x31 p) := by
  have checks : refusedBy 0x31 p = if p.length < 2 then some 0x07 else if 8 ≤ byteAt p 0 then some 0x03
      else if ipVersionOf (byteAt p 1) = none then some 0x05
      else if p.length < (if byteAt p 1 = 4 then 14 else 38) then some 0x07 else none := by
    simp [refusedBy, leastParams, namesLane, badIndex, badValue, ipVersionOf_eq_none]
  rw [checks]
  refine .withLength (.withLane fun l => ?_) 2
  cases version : ipVersionOf (byteAt p 1) with
  | none => exact .refused .badValue
  | some v =>
    rw [keyEnd_of_ipVersionOf version]
    refine .withLength (.withSpace fun fits => ?_) _
    split
    · exact .done fits (.inl rfl)
    · exact .done fits (.inl rfl)

theorem ends_chipReset : (effectChipReset p space s).Ends s 0 space none := by
  unfold effectChipReset
  split
  · exact .done (Nat.zero_le _) (.inl rfl)
  · exact .notNow (Nat.zero_le _) []

end

/-- What a command answers ends as its checks say, in their order. -/
theorem outcome_ends {c : Instr} {code : Byte} {params : List Byte} (row : c.command = some (code, params)) (space : Nat)
    (s : State) : (c.outcome space s).Ends s (fullResults code params) space (refusedBy code params) := by
  cases c <;> cases row
  case keepalive => exact .whole (.inl rfl)
  case readChip => exact .whole (.inl rfl)
  case writeChip => exact ends_writeChip params space s
  case setTimebase => exact ends_setTimebase params space s
  case ackEvents => exact ends_ackEvents params space s
  case setLaneMode => exact ends_setLaneMode params space s
  case writeLaneParams => exact ends_writeLaneParams params space s
  case readLane => exact ends_readLane params space s
  case readCounters => exact ends_readCounters params space s
  case flushFlows => exact ends_flushFlows params space s
  case releaseLane => exact ends_releaseLane params space s
  case startProbe => exact ends_startProbe params space s
  case writeClass => exact ends_writeClass params space s
  case readClass => exact ends_readClass params space s
  case readFlows => exact ends_readFlows params space s
  case evictFlow => exact ends_evictFlow params space s
  case chipReset => exact ends_chipReset params space s

theorem exec_of_refused {c : Instr} {code status : Byte} {params : List Byte} {space : Nat} {s : State}
    (row : c.command = some (code, params)) (now : s.spaceFor code params = some space)
    (refused : refusedBy code params = some status) :
    ∃ t : State, exec c s = .next t ∧ t.lastItem = some ⟨code, status, []⟩ ∧ t.apartEngine = s.apartEngine := by
  obtain ⟨t, answer, item, apart⟩ := exec_command_spec row now
  have ends := outcome_ends row space s
  rw [refused] at ends
  generalize c.outcome space s = o at item apart ends
  cases ends with
  | refused _ => exact ⟨t, answer, item, apart⟩

/-- Settles O24: every command's outcome ends as the checks in their order say, and only an outcome that is done changes
anything. -/
theorem refusedCommandChangesNothing : Obligations.RefusedCommandChangesNothing := by
  unfold Obligations.RefusedCommandChangesNothing
  refine ⟨fun c code params s space row now short => exec_of_refused row now (if_pos short),
    fun c code params s space row now len names lane notChip => exec_of_refused row now ?_,
    fun c code params s t space item row now answer last notOk notClamped => ?_,
    fun c code params s space row now => ⟨fun status => exec_of_refused row now, fun passed short => ?_,
      fun passed fits => ?_⟩⟩
  · rw [refusedBy, if_neg (Nat.not_lt.mpr len), if_pos ⟨names, lane, notChip⟩]
  · obtain ⟨u, answer', item', apart⟩ := exec_command_spec row now
    cases answer.symm.trans answer'
    cases last.symm.trans item'
    obtain ok | clamped | same := (outcome_ends row space s).unchanged
    · exact absurd (congrArg Status.code ok) notOk
    · exact absurd (congrArg Status.code clamped) notClamped
    · rw [apart, same]
  all_goals
    obtain ⟨t, answer, item, apart⟩ := exec_command_spec row now
    have ends := outcome_ends row space s
    rw [passed] at ends
    generalize c.outcome space s = o at item apart ends
  · cases ends with
    | abandoned _ => exact ⟨t, answer, item, apart⟩
    | done fits _ => exact absurd short (Nat.not_lt.mpr fits)
    | notNow fits _ => exact absurd short (Nat.not_lt.mpr fits)
  · refine ⟨t, _, answer, item, rfl, ?_⟩
    cases ends with
    | abandoned short => exact absurd short (Nat.not_lt.mpr fits)
    | done _ status =>
      obtain ok | clamped := status
      · exact .inl (congrArg Status.code ok)
      · exact .inr (.inl (congrArg Status.code clamped))
    | notNow _ _ => exact .inr (.inr rfl)

end Sys2Proof.Machine

/-! SUPPORT. The control engine over the commands of its frame: the command it executes, its item, the walk to the next one,
and the response (R157 to R161, R171, R172). -/

namespace Sys2Proof.Machine

/-! ### The command that is next -/

theorem next_eq_some {f : InService} {code : Byte} {params : List Byte} (h : f.next = some (code, params)) :
    f.remaining ≠ 0 ∧ f.abandoned = false ∧ f.codeByte = code := by
  unfold InService.next at h
  split at h
  · cases h
  · rename_i goes
    cases h
    simp only [not_or, Bool.not_eq_true] at goes
    obtain ⟨left, notAbandoned, -, -⟩ := goes
    exact ⟨left, notAbandoned, rfl⟩

section

variable {s : State} {f : InService} {code : Byte} {params : List Byte}

theorem spaceFor_of_next (released : s.rstN = true) (engine : s.control.engine = .executing f)
    (next : f.next = some (code, params)) : s.spaceFor code params = some f.space := by
  unfold State.spaceFor
  rw [engine]
  exact if_pos ⟨released, next⟩

theorem spaceFor_of_ne_next (engine : s.control.engine = .executing f) (other : f.next ≠ some (code, params)) :
    s.spaceFor code params = none := by
  unfold State.spaceFor
  rw [engine]
  exact if_neg fun h => other h.2

theorem spaceFor_of_handOver {l : LaneId} {r : Frame} (engine : s.control.engine = .handOver l r) :
    s.spaceFor code params = none := by
  unfold State.spaceFor
  rw [engine]

end

/-- CHIP-RESET is the command of code 0x7F. -/
theorem isChipReset_eq {c : Instr} {code : Byte} {params : List Byte} (row : c.command = some (code, params)) :
    c.isChipReset = decide (code = 0x7F) := by
  cases c <;> cases row <;> rfl

/-! ### Its item, and the walk behind it -/

/-- The frame in service once its next command has this status and these results: after an ABANDONED one, and after a
CHIP-RESET of status OK, all that follows is abandoned (R158, R171). -/
def InService.answered (f : InService) (code : Byte) (status : Status) (results : List Byte) : InService :=
  { f.decideNext status results with
    abandoned := decide (status = .abandoned) || (decide (code = 0x7F) && decide (status = .ok)) }

theorem answered_abandoned {code : Byte} {status : Status} (h : status = .abandoned ∨ (code = 0x7F ∧ status = .ok))
    (f : InService) (results : List Byte) : (f.answered code status results).abandoned = true := by
  simpa [InService.answered] using h

/-- The engine writes the item of the command it executes and walks on to the next one to execute. -/
theorem writeItem_of_executing {c : Instr} {s : State} {f : InService} {code : Byte} {params : List Byte}
    (row : c.command = some (code, params)) (engine : s.control.engine = .executing f)
    (notAbandoned : f.abandoned = false) (o : CommandOutcome) : s.writeItem code o c.isChipReset =
      State.serve { o.state with lastItem := some ⟨code, o.status.code, o.results⟩ }
        (f.answered code o.status o.results) := by
  unfold State.writeItem
  rw [engine, isChipReset_eq row]
  simp only [InService.decideNext, InService.answered, notAbandoned, Bool.false_or]

/-- The items that the walk adds: without results, UNKNOWN or ABANDONED, and all ABANDONED in a frame that is. -/
theorem items_walk (n : Nat) : ∀ f : InService, ∃ more, (InService.walk n f).items = f.items ++ more ∧
    ∀ i ∈ more, i.results = [] ∧ (i.status = 0x06 ∨ i.status = 0x08) ∧ (f.abandoned = true → i.status = 0x08) := by
  induction n with
  | zero => exact fun f => ⟨[], (List.append_nil _).symm, nofun⟩
  | succ n ih =>
    intro f
    have stops : ∃ more, f.items = f.items ++ more ∧ ∀ i ∈ more,
        i.results = [] ∧ (i.status = 0x06 ∨ i.status = 0x08) ∧ (f.abandoned = true → i.status = 0x08) :=
      ⟨[], (List.append_nil _).symm, nofun⟩
    have passes : ∀ st : Status, (st.code = 0x06 ∨ st.code = 0x08) → (f.abandoned = true → st.code = 0x08) →
        ∃ more, (InService.walk n (f.decideNext st [])).items = f.items ++ more ∧ ∀ i ∈ more,
          i.results = [] ∧ (i.status = 0x06 ∨ i.status = 0x08) ∧ (f.abandoned = true → i.status = 0x08) := by
      intro st code abandoned
      obtain ⟨more, items, each⟩ := ih (f.decideNext st [])
      refine ⟨f.passedOver st :: more, by rw [items]; simp [InService.passedOver], fun i hi => ?_⟩
      obtain rfl | later := List.mem_cons.mp hi
      · exact ⟨rfl, code, abandoned⟩
      · obtain ⟨empty, status, all⟩ := each i later
        exact ⟨empty, status, fun h => all (by rw [InService.decideNext, h]; rfl)⟩
    rw [walk_succ]
    split
    · exact stops
    · split
      · exact passes .abandoned (.inr rfl) fun _ => rfl
      · rename_i goes
        split
        · exact stops
        · exact passes .unknown (.inl rfl) fun h => absurd (by rw [h]; rfl) goes

/-! ### The response -/

/-- The response of R161, byte by byte. -/
theorem response_eq {w : InService} {h : EtherHeader} (header : etherHeader w.frame = some h) (etherType : Nat)
    (addr : BitVec 4) {body : List Byte} (hb : body = bytesAt w.frame 6 6 ++
      [0x0A, 0x3C, 0x71, 0x2F, 0x50, BitVec.ofNat 8 addr.toNat] ++ bytesAt w.frame 12 (h.netAt - 14) ++
      beBytes 2 etherType ++ [1, BitVec.ofNat 8 (byteAt w.payload 1) ||| 0x80] ++ bytesAt w.payload 2 2 ++
      bytesAt w.payload 4 1 ++ [0] ++
      w.items.flatMap (fun i => [i.code, i.status] ++ beBytes 2 i.results.length ++ i.results)) :
    w.response etherType addr = (body ++ List.replicate (60 - body.length) 0) ++
      fcsBytes (body ++ List.replicate (60 - body.length) 0) := by
  have tags : w.tags = bytesAt w.frame 12 (h.netAt - 14) := by
    rw [InService.tags, header]
    rfl
  have payload : source w.frame ++ chipAddress addr ++ w.tags ++ beBytes 2 etherType ++ w.responsePayload = body := by
    rw [hb, tags]
    simp only [InService.responsePayload, ← List.append_assoc]
    rfl
  rw [InService.response, withFcs, InService.responseContents, payload]
  rfl

/-! ### The obligation -/

/-- Settles O25: the item is the last of the frame with its command decided, the walk adds the others, and a command that
is not next has no result space. -/
theorem engineExecutesTheFrameInOrder : Obligations.EngineExecutesTheFrameInOrder := by
  unfold Obligations.EngineExecutesTheFrameInOrder
  refine ⟨fun c code params s f row released engine next => ?_,
    fun w h etherType addr body header hb => response_eq header etherType addr hb,
    fun c code params s f row engine other => exec_command_notNow row (spaceFor_of_ne_next engine other),
    fun c code params s l r row engine => exec_command_notNow row (spaceFor_of_handOver engine)⟩
  obtain ⟨left, notAbandoned, ownCode⟩ := next_eq_some next
  have answer := exec_command_done row (spaceFor_of_next released engine next)
  rw [writeItem_of_executing row engine notAbandoned] at answer
  generalize c.outcome f.space s = o at answer
  obtain ⟨g, hg⟩ : ∃ g : InService, g = f.answered code o.status o.results := ⟨_, rfl⟩
  obtain ⟨w, hw⟩ : ∃ w : InService, w = InService.walk (f.remaining - 1) g := ⟨_, rfl⟩
  have remaining : g.remaining = f.remaining - 1 := hg ▸ rfl
  have first : g.items = f.items ++ [⟨code, o.status.code, o.results⟩] := by rw [hg, ← ownCode]; rfl
  have walked : g.Walked w := hw ▸ walked_walk _ g remaining.le
  obtain ⟨lane, frame, payload, -⟩ := walk_keeps (f.remaining - 1) g
  obtain ⟨more, items, each⟩ := items_walk (f.remaining - 1) g
  rw [← hw] at lane frame payload items
  rw [← hg] at answer
  refine ⟨_, ⟨code, o.status.code, o.results⟩, o.status, w, more, answer, rfl, rfl, rfl, hw.trans (by rw [hg]; rfl),
    lane.trans (hg ▸ rfl), frame.trans (hg ▸ rfl), payload.trans (hg ▸ rfl), ?_, ?_, ?_, fun ends => ?_, fun done => ?_,
    fun more => ⟨?_, (walked.waits more).1⟩⟩
  · rw [items, first, List.append_assoc]
    rfl
  · rw [walked.count, first, remaining, List.length_append, List.length_singleton]
    omega
  · intro i hi
    obtain ⟨empty, status, -⟩ := each i hi
    exact ⟨empty, status⟩
  · have abandoned : g.abandoned = true := hg ▸ answered_abandoned ends f o.results
    refine ⟨?_, fun i hi => ?_⟩
    · rw [hw]
      exact (walk_of_abandoned _ g abandoned remaining.le).1
    · obtain ⟨-, -, all⟩ := each i hi
      exact all abandoned
  · simp only [State.serve]
    rw [remaining, ← hw, if_pos done, lane, hg]
    rfl
  · simp only [State.serve]
    rw [remaining, ← hw, if_neg (Nat.pos_iff_ne_zero.mp more)]

end Sys2Proof.Machine

/-! SUPPORT. The event latch and ALERT_N bit by bit, and the commands KEEPALIVE, WRITE-CHIP and ACK-EVENTS (R162, R164,
R165, R174, R177 to R179, R182). -/

namespace Sys2Proof.Machine

/-! ### The bits of the events -/

theorem Event.bit_lt (e : Event) : e.bit < 19 := by
  cases e with
  | wdog => decide
  | overload l => exact (Nat.add_lt_add_left l.isLt 1).trans (by decide)
  | gateFlush l => exact (Nat.add_lt_add_left l.isLt 9).trans (by decide)
  | probe => decide
  | ctlDrop => decide

/-- The event of a bit of the event fields (R182). -/
def Event.ofBit (i : Nat) : Event :=
  if i = 0 then .wdog
  else if i < 9 then .overload (Fin.ofNat 8 (i - 1))
  else if i < 17 then .gateFlush (Fin.ofNat 8 (i - 9))
  else if i = 17 then .probe
  else .ctlDrop

theorem Event.ofBit_bit (e : Event) : Event.ofBit e.bit = e := by
  cases e with
  | wdog => rfl
  | overload l => revert l; decide
  | gateFlush l => revert l; decide
  | probe => rfl
  | ctlDrop => rfl

theorem Event.bit_ofBit : ∀ i < 19, (Event.ofBit i).bit = i := by decide

theorem Event.bit_injective : Function.Injective Event.bit := Function.LeftInverse.injective Event.ofBit_bit

theorem Event.getLsbD_mask (e e' : Event) : e'.mask.getLsbD e.bit = true ↔ e = e' := by
  rw [Event.mask, BitVec.getLsbD_ofNat, Nat.testBit_two_pow, decide_eq_true e.bit_lt, Bool.true_and, decide_eq_true_eq]
  exact ⟨fun h => Event.bit_injective h.symm, fun h => h ▸ rfl⟩

/-- ALERT_N is driven low while RST_N is released and some event is both latched and enabled (R179). -/
theorem alertLow_iff (s : State) :
    s.alertLow = true ↔ s.rstN = true ∧ ∃ e : Event, s.latched e = true ∧ s.enabled e = true := by
  rw [State.alertLow, Bool.and_eq_true, decide_eq_true_eq]
  refine and_congr_right fun _ => ⟨fun some => ?_, fun ⟨e, latched, enabled⟩ none => ?_⟩
  · by_contra no
    refine some (BitVec.eq_of_getLsbD_eq fun i inside => ?_)
    rw [← Event.bit_ofBit i inside, BitVec.getLsbD_and]
    have clear := Bool.eq_false_iff.mpr fun both => no ⟨Event.ofBit i, Bool.and_eq_true_iff.mp both⟩
    exact clear.trans BitVec.getLsbD_zero.symm
  · have bit : (s.latch &&& s.enables).getLsbD e.bit = true := by
      rw [BitVec.getLsbD_and, Bool.and_eq_true]
      exact ⟨latched, enabled⟩
    rw [none] at bit
    exact absurd (BitVec.getLsbD_zero.symm.trans bit) Bool.false_ne_true

/-! ### ACK-EVENTS -/

theorem latched_latchEvent_iff (s : State) (e e' : Event) :
    (s.latchEvent e').latched e = true ↔ s.latched e = true ∨ e = e' := by
  rw [State.latched, State.latchEvent, BitVec.getLsbD_or, Bool.or_eq_true, Event.getLsbD_mask]
  exact Iff.rfl

theorem overloaded_latchOverload (s : State) (k l : LaneId) : (s.latchOverload k).overloaded l = s.overloaded l := by
  rw [State.overloaded, State.lane_latchOverload]
  rfl

theorem latched_latchOverload_iff (s : State) (l : LaneId) (e : Event) :
    (s.latchOverload l).latched e = true ↔ s.latched e = true ∨ e = .overload l ∧ s.overloaded l = true := by
  unfold State.latchOverload
  split
  · rename_i holds
    simp [latched_latchEvent_iff, holds]
  · rename_i fails
    simp [fails]

/-- The OVERLOADs of some lanes latched again: those whose condition holds, and no other event (R178). -/
theorem latched_foldl_latchOverload (e : Event) (lanes : List LaneId) : ∀ s : State,
    (lanes.foldl (fun s l => s.latchOverload l) s).latched e = true ↔
      s.latched e = true ∨ ∃ l ∈ lanes, e = .overload l ∧ s.overloaded l = true := by
  induction lanes with
  | nil => exact fun s => by simp
  | cons k rest ih =>
    intro s
    rw [List.foldl_cons, ih, latched_latchOverload_iff]
    simp only [overloaded_latchOverload, List.exists_mem_cons_iff, or_assoc]

theorem latched_cleared_iff (s : State) (mask : Nat) (e : Event) :
    State.latched { s with latch := s.latch &&& ~~~ (BitVec.ofNat 19 mask) } e = true ↔
      s.latched e = true ∧ mask.testBit e.bit = false := by
  simp only [State.latched, BitVec.getLsbD_and, BitVec.getLsbD_not, BitVec.getLsbD_ofNat, e.bit_lt, decide_true,
    Bool.true_and, Bool.and_eq_true, Bool.not_eq_true']

/-- The state ACK-EVENTS leaves: the named latches cleared, and each OVERLOAD whose condition holds latched again
(R165, R178). -/
def State.acknowledged (s : State) (mask : Nat) : State :=
  forEachLane (fun l s => s.latchOverload l) { s with latch := s.latch &&& ~~~ (BitVec.ofNat 19 mask) }

theorem effectAckEvents_eq {params : List Byte} {space : Nat} (s : State) (fits : 3 ≤ space) (len : 3 ≤ params.length) :
    effectAckEvents params space s =
      ⟨.ok, beBytes 3 (s.acknowledged (fieldAt params 0 3)).latch.toNat, s.acknowledged (fieldAt params 0 3)⟩ := by
  rw [effectAckEvents, withLength_of_le len]
  exact withSpace_of_le fits s _

theorem latched_acknowledged_iff {s : State} (legal : s.OverloadsLatched) (mask : Nat) (e : Event) :
    (s.acknowledged mask).latched e = true ↔ s.latched e = true ∧ (mask.testBit e.bit = false ∨
      ∃ l : LaneId, e = .overload l ∧ s.overloaded l = true) := by
  have again : (∃ l ∈ allLanes, e = .overload l ∧ s.overloaded l = true) ↔
      s.latched e = true ∧ ∃ l : LaneId, e = .overload l ∧ s.overloaded l = true := by
    exact ⟨fun ⟨l, _, own, holds⟩ => ⟨own ▸ legal l holds, l, own, holds⟩, fun ⟨_, l, held⟩ => ⟨l, mem_allLanes l, held⟩⟩
  rw [State.acknowledged, forEachLane, latched_foldl_latchOverload, latched_cleared_iff, and_or_left]
  exact or_congr_right again

/-- ACK-EVENTS changes the latch and nothing else. -/
theorem acknowledged_eq (s : State) (mask : Nat) :
    s.acknowledged mask = { s with latch := (s.acknowledged mask).latch } := by
  have turns : ∃ x : BitVec 19, s.acknowledged mask = { s with latch := x } := by
    refine forEachLane_keeps (P := fun u => ∃ x : BitVec 19, u = { s with latch := x }) (fun l u h => ?_) ⟨_, rfl⟩
    obtain ⟨x, rfl⟩ := h
    unfold State.latchOverload
    split
    · exact ⟨_, rfl⟩
    · exact ⟨x, rfl⟩
  obtain ⟨x, turns⟩ := turns
  rw [turns]

/-- Settles O30: bit by bit of the latch, each bit being that of one event. -/
theorem ackEventsClearsTheNamedLatches : Obligations.AckEventsClearsTheNamedLatches := by
  unfold Obligations.AckEventsClearsTheNamedLatches
  refine ⟨fun params s space now fits len legal => ?_, alertLow_iff, rfl, fun l => ⟨rfl, rfl⟩, rfl, rfl⟩
  obtain ⟨t, answer, item, apart⟩ := exec_command_spec (c := .ackEvents params) rfl now
  rw [show (Instr.ackEvents params).outcome space s = effectAckEvents params space s from rfl,
    effectAckEvents_eq s fits len] at item apart
  have events := latched_acknowledged_iff legal (fieldAt params 0 3)
  have rest := acknowledged_eq s (fieldAt params 0 3)
  generalize s.acknowledged (fieldAt params 0 3) = u at item apart events rest
  have latch : t.latch = u.latch := (congrArg State.latch apart :)
  refine ⟨t, answer, by rw [item, latch]; rfl, fun e => ?_, ?_⟩
  · rw [State.latched, latch]
    exact events e
  · rw [apart, latch, ← rest]

/-! ### KEEPALIVE -/

/-- Settles O26: the one check is that of the space, and the effect is the monitor's. -/
theorem keepaliveClearsTheCount : Obligations.KeepaliveClearsTheCount := by
  unfold Obligations.KeepaliveClearsTheCount
  intro params s space now fits
  obtain ⟨t, answer, item, apart⟩ := exec_command_spec (c := .keepalive params) rfl now
  have effect : (Instr.keepalive params).outcome space s = effectKeepalive params space s := rfl
  rw [effect, effectKeepalive, withSpace_of_le fits] at item apart
  refine ⟨t, answer, ?_, apart⟩
  rw [item, Keepalive.clear]
  by_cases off : s.keepalive.period = 0
  · rw [if_pos off, if_pos off]
    rfl
  · rw [if_neg off, if_neg off]
    rfl

/-! ### WRITE-CHIP -/

/-- Table 10-1: a written T above 0 leaves an EXPIRED monitor so, and makes any other RUNNING. -/
theorem keepaliveWrite_eq (k : Keepalive) (period : Nat) : k.write period =
    ⟨period, 0, if period = 0 then .off else if k.state = .expired then .expired else .running⟩ := by
  rw [Keepalive.write]
  cases k.state <;> rfl

theorem okOr_enables (v : Nat) : (okOr (decide (2 ^ 19 ≤ v))).code = if v < 524288 then 0x00 else 0x01 := by
  rw [okOr_decide_code]
  by_cases within : v < 524288
  · rw [if_pos within, if_neg (by omega)]
  · rw [if_neg within, if_pos (by omega)]

/-- Settles O28: refused by its EtherType, or done with the three values stored. -/
theorem writeChipStoresThreeValues : Obligations.WriteChipStoresThreeValues := by
  unfold Obligations.WriteChipStoresThreeValues
  intro params s space now len
  obtain ⟨t, answer, item, apart⟩ := exec_command_spec (c := .writeChip params) rfl now
  have effect : (Instr.writeChip params).outcome space s = effectWriteChip params space s := rfl
  rw [effect, effectWriteChip, withLength_of_le len] at item apart
  refine ⟨fun refused => ?_, fun low free fits => ?_⟩
  · rw [if_pos ((etherTypeRefused_iff _).mpr refused)] at item apart
    exact ⟨t, answer, item, apart⟩
  · have allowed : ¬ etherTypeRefused (fieldAt params 0 2) = true := fun h =>
      ((etherTypeRefused_iff _).mp h).elim (Nat.not_lt.mpr low) free
    rw [if_neg allowed] at item apart
    dsimp only at item apart
    rw [withSpace_of_le fits, keepaliveWrite_eq] at item apart
    refine ⟨t, answer, ?_, apart⟩
    rw [item, okOr_enables]
    simp only [State.chipSettings, BitVec.toNat_ofNat]

end Sys2Proof.Machine

/-! SUPPORT. One step with a queue, and that the dispatch is total: the arm of every command answers a next state. -/

namespace Sys2Proof.Machine

/-- A waiting command runs on the state that no longer holds it. -/
theorem step_of_pending {s : State} {c : Instr} {rest : List Instr} (waiting : s.pending = c :: rest) :
    step s = exec c { s with pending := rest } := by
  rw [step, waiting]

/-- No arm of the dispatch faults or refuses, in reset and without the clock too. -/
theorem exec_answers (c : Instr) (s : State) : ∃ t : State, exec c s = .next t := by
  cases c <;> exact ⟨_, rfl⟩

/-- Settles O1: the front command runs on the queue's rest, and the dispatch is total. -/
theorem stepRunsTheFrontCommand : Obligations.StepRunsTheFrontCommand := by
  unfold Obligations.StepRunsTheFrontCommand
  intro c rest s
  exact ⟨step_of_pending rfl, exec_answers c s⟩

end Sys2Proof.Machine
